-- ==== Sys2Proof/Word.lean ====
section
/-! DEFINITION. The word types of the KC-2300 model, and the byte orders of section 0.5.1. -/

namespace Sys2Proof

/-- One byte of a frame, a page or a record. -/
abbrev Byte := BitVec 8

/-- A party key or an event key: a 64-bit identifier (TABLE 0-6). -/
abbrev Key := BitVec 64

/-- A digest: the 32 bytes of a SHA-256 value, first byte most significant (section 0.5.4). -/
abbrev Digest := BitVec 256

/-- A media channel number, 0 to 3 (R155). -/
abbrev ChanNo := Fin 4

/-- A sparse table keyed by number, kept in rising key order: the shape of every table of index memory. -/
abbrev Table (α : Type) := List (Nat × α)

end Sys2Proof
end

