-- ==== Sys2Proof/Config.lean ====
section
/-! DEFINITION. What the spec fixes for the part (the capacities of TABLE 0-5 and the constants of the chapters), and the one
value the spec leaves open, which is a constant with no body. -/

namespace Sys2Proof.Config

/-- The last archive second, of 2199-12-31 (section 0.5.2). -/
def secondMax : Nat := 6311433599
/-- Seconds in an archive day (TABLE 0-3). -/
def daySeconds : Nat := 86400
/-- The last archive day (section 0.5.2). -/
def dayMax : Nat := 73048
/-- The 31 days that CLOCK_SET may pass the HWM by in COMPLIANT mode (TABLE 1-2). -/
def setCeiling : Nat := 2678400
/-- The highest item number (R97). -/
def itemMax : Nat := 16777215
/-- The number of ingest contexts (section 2.1). -/
def contexts : Nat := 16
/-- The most parties of an envelope (R26). -/
def partiesMax : Nat := 128
/-- The most segment slots of an envelope (R26). -/
def slotsMax : Nat := 256
/-- The longest segment in bytes (TABLE 0-4). -/
def segMax : Nat := 16777216
/-- The most bytes one SEG_DATA or one SEG_READ carries (R30, R69). -/
def dataMax : Nat := 4096
/-- The number of buckets (section 3.1). -/
def buckets : Nat := 131072
/-- The ways of a bucket (section 3.1). -/
def ways : Nat := 8
/-- The group term of the bucket number (R52). -/
def groupStride : Nat := 4099
/-- The entries of the overflow list (section 3.1). -/
def overflow : Nat := 8192
/-- The most claims of an entry (R55). -/
def claimsMax : Nat := 16
/-- The most waiters of an entry (R56). -/
def waitersMax : Nat := 15
/-- The count of refs that pins an entry (R67). -/
def refsMax : Nat := 16777215
/-- The verify places (R71). -/
def verifies : Nat := 4
/-- The retention classes (R74). -/
def classes : Nat := 64
/-- The most classes of one item (R89). -/
def classesPerItem : Nat := 4
/-- The domains (R82). -/
def domains : Nat := 16
/-- The dedup groups (R82). -/
def groups : Nat := 16
/-- The policy list's entries (R86). -/
def policyEntries : Nat := 512
/-- The visits an evaluation may make (R88). -/
def visitCap : Nat := 256
/-- The depth of the call stack (R90). -/
def callDepth : Nat := 4
/-- The event keys (R104). -/
def eventKeys : Nat := 65536
/-- The places of the sweep queue (R111). -/
def sweepQueue : Nat := 16
/-- The matters (R117). -/
def matters : Nat := 64
/-- The positions of the custodian table (R122). -/
def custodians : Nat := 4096
/-- The places of the disposition queue (R141). -/
def dispoQueue : Nat := 65536
/-- The places of the disposal list (R144). -/
def disposalList : Nat := 256
/-- The data zones of a channel, numbered 0 to 8,190 (section 8.2). -/
def dataZones : Nat := 8191
/-- The pages of a zone (TABLE 0-4). -/
def zonePages : Nat := 4096
/-- The bytes of a page (TABLE 0-4). -/
def pageBytes : Nat := 16384
/-- The staging pages of a channel (TABLE 8-3). -/
def stagingPages : Nat := 64
/-- The places of a READ queue (TABLE 8-3). -/
def readQueue : Nat := 32
/-- The places of an AUDIT queue (TABLE 8-3). -/
def auditQueue : Nat := 4
/-- The suspensions one erase may take (R168). -/
def suspendMax : Nat := 8
/-- The consecutive program failures that fence a channel (R171). -/
def failMax : Nat := 4
/-- The records of the audit buffer (R181). -/
def auditBuffer : Nat := 2048
/-- The record count at which AUDIT_HALF is raised (R182). -/
def auditHalf : Nat := 1024
/-- The records of a full audit page (section 9.3). -/
def recsPerPage : Nat := 64
/-- The seconds after which the oldest undrained record forms a page (R184). -/
def auditWait : Nat := 5
/-- The bytes of an audit record (section 9.1). -/
def recordBytes : Nat := 256
/-- The most payload bytes of a frame (R191). -/
def payloadMax : Nat := 4160
/-- The revision this manual describes (R202). -/
def revision : Nat := 0x0100

/-- FREE VALUE. What a START_UP record of cause LINK_RESET says of the time base: R189 has the record carry whether the time
base was found intact (R4), and R4 examines it at a power-on only, so no rule gives the value at a link reset. Its
argument is the sequence number the record takes, so that each record has its own. DESIGN CHOICE, log entry 3. -/
opaque linkResetIntact : Nat → Bool

end Sys2Proof.Config
end

