-- ==== Sys2Proof/Syntax.lean ====
section
/-! DEFINITION. The commands of the KC-2300: one constructor of Instr per row of spec/opcode_table.json. A request carries
its frame's tag and the fields of its payload; an event carries what the part's own buses bring with it. -/

namespace Sys2Proof

/-- The anchor kind of a retention class (R74). -/
inductive AnchorKind where
  | ingest | sent | event
deriving DecidableEq, Repr

/-- The definition of a retention class: anchor, period, floor and permanent flag (R74). -/
structure ClassDef where
  anchor : AnchorKind
  py : Nat
  pm : Nat
  pd : Nat
  fd : Nat
  permanent : Bool
deriving DecidableEq, Repr

/-- The tests of the policy list (TABLE 4-2). -/
inductive PolicyTest where
  | always
  | domain (d : Nat)
  | tag (n : Nat)
  | partiesAtLeast (n : Nat)
  | segmentsAtLeast (n : Nat)
  | sizeAtLeast (k : Nat)
  | hasEventKey
  | itemFlag (f : Nat)
  | archiveFlag (f : Nat)
  | anyCustodian
deriving DecidableEq, Repr

/-- The actions of the policy list (TABLE 4-3); `stop` is the manual's END. -/
inductive PolicyAction where
  | cls (c : Nat)
  | flags (set clear : BitVec 8)
  | goto (e : Nat)
  | call (e : Nat)
  | ret
  | stop
deriving DecidableEq, Repr

/-- A policy list entry (R86); `whenTrue` is the sense WHEN_TRUE, its negation WHEN_FALSE. -/
inductive PolicyEntry where
  | unused
  | used (test : PolicyTest) (whenTrue : Bool) (action : PolicyAction)
deriving DecidableEq, Repr

/-- The context reference a request carries: a context number and a generation (R24). -/
structure CtxRef where
  ctx : Nat
  gen : Nat
deriving DecidableEq, Repr

/-- The payload of a request as the Link interface finds it (R192): the fields of its layout, or a payload whose length is
not the one the layout requires or whose fields hold an encoding the layout does not define. -/
inductive Req (α : Type) where
  | fields (a : α)
  | malformed
deriving DecidableEq, Repr

/-- ITEM_OPEN (R26, TABLE 10-9). -/
structure ItemOpen where
  domain : Nat
  segCount : Nat
  sent : Nat
  tags : BitVec 32
  event : Option Key
  parties : List Key
deriving DecidableEq, Repr

/-- SEG_DECLARE (R28). -/
structure SegDeclare where
  ref : CtxRef
  slot : Nat
  digest : Digest
  length : Nat
deriving DecidableEq, Repr

/-- SEG_DATA (R30, TABLE 10-10); the byte count is the length of `data`. -/
structure SegData where
  ref : CtxRef
  slot : Nat
  offset : Nat
  data : List Byte
deriving DecidableEq, Repr

/-- ITEM_SEGMENTS (R100). -/
structure ItemSegments where
  item : Nat
  first : Nat
  count : Nat
deriving DecidableEq, Repr

/-- SEG_READ (R69). -/
structure SegReadReq where
  item : Nat
  slot : Nat
  offset : Nat
  count : Nat
deriving DecidableEq, Repr

/-- SEG_VERIFY (R71). -/
structure SegVerifyReq where
  item : Nat
  slot : Nat
deriving DecidableEq, Repr

/-- CLASS_SET (R75). -/
structure ClassSet where
  cls : Nat
  defn : ClassDef
deriving DecidableEq, Repr

/-- DOMAIN_SET (R83). -/
structure DomainSet where
  domain : Nat
  active : Bool
  group : Nat
  fallback : Nat
  start : Nat
  backdate : Nat
deriving DecidableEq, Repr

/-- POLICY_WRITE (R86). -/
structure PolicyWrite where
  entry : Nat
  content : PolicyEntry
deriving DecidableEq, Repr

/-- ARCHIVE_FLAGS (R85). -/
structure FlagMasks where
  set : BitVec 8
  clear : BitVec 8
deriving DecidableEq, Repr

/-- EVENT_POST (R106). -/
structure EventPost where
  key : Key
  day : Nat
deriving DecidableEq, Repr

/-- EVENT_READ (R108). -/
structure EventRead where
  key : Key
  first : Nat
  count : Nat
deriving DecidableEq, Repr

/-- The fields of a matter: domain mask, optional range of sent days, all-parties flag (R117). -/
structure MatterFields where
  domains : BitVec 16
  range : Option (Nat × Nat)
  allParties : Bool
deriving DecidableEq, Repr

/-- MATTER_OPEN and MATTER_AMEND (R118, R119). -/
structure MatterSet where
  matter : Nat
  body : MatterFields
deriving DecidableEq, Repr

/-- CUSTODIAN_SET (R123). -/
structure CustodianSet where
  key : Key
  mask : BitVec 64
deriving DecidableEq, Repr

/-- A window of a list: DISPO_LIST's first position and count (R142), AUDIT_READ's first sequence and count (R187). -/
structure Window where
  first : Nat
  count : Nat
deriving DecidableEq, Repr

/-- DISPO_RELEASE: the item named as first, and the count n (R144). -/
structure DispoRelease where
  first : Nat
  n : Nat
deriving DecidableEq, Repr

/-- SETTING_SET (R198). -/
structure SettingSet where
  setting : Nat
  value : Nat
deriving DecidableEq, Repr

/-- The commands: every row of spec/opcode_table.json, in its order. -/
inductive Instr where
  | itemOpen (tag : Byte) (r : Req ItemOpen)
  | segDeclare (tag : Byte) (r : Req SegDeclare)
  | segData (tag : Byte) (r : Req SegData)
  | itemCommit (tag : Byte) (r : Req CtxRef)
  | itemAbort (tag : Byte) (r : Req CtxRef)
  | itemRead (tag : Byte) (r : Req Nat)
  | itemSegments (tag : Byte) (r : Req ItemSegments)
  | segRead (tag : Byte) (r : Req SegReadReq)
  | segVerify (tag : Byte) (r : Req SegVerifyReq)
  | clockRead (tag : Byte) (r : Req Unit)
  | clockSet (tag : Byte) (r : Req Nat)
  | clockAdjust (tag : Byte) (r : Req Nat)
  | classSet (tag : Byte) (r : Req ClassSet)
  | classClear (tag : Byte) (r : Req Nat)
  | classRead (tag : Byte) (r : Req Nat)
  | domainSet (tag : Byte) (r : Req DomainSet)
  | domainRead (tag : Byte) (r : Req Nat)
  | policyWrite (tag : Byte) (r : Req PolicyWrite)
  | policyRead (tag : Byte) (r : Req Nat)
  | archiveFlags (tag : Byte) (r : Req FlagMasks)
  | eventPost (tag : Byte) (r : Req EventPost)
  | eventRead (tag : Byte) (r : Req EventRead)
  | sweepStatus (tag : Byte) (r : Req Unit)
  | matterOpen (tag : Byte) (r : Req MatterSet)
  | matterAmend (tag : Byte) (r : Req MatterSet)
  | matterClose (tag : Byte) (r : Req Nat)
  | matterRead (tag : Byte) (r : Req Nat)
  | custodianSet (tag : Byte) (r : Req CustodianSet)
  | custodianFind (tag : Byte) (r : Req Key)
  | custodianRead (tag : Byte) (r : Req Nat)
  | dispoList (tag : Byte) (r : Req Window)
  | dispoRelease (tag : Byte) (r : Req DispoRelease)
  | dispoStatus (tag : Byte) (r : Req Unit)
  | channelStatus (tag : Byte) (r : Req Nat)
  | channelProbe (tag : Byte) (r : Req Nat)
  | auditRead (tag : Byte) (r : Req Window)
  | auditHead (tag : Byte) (r : Req Unit)
  | identify (tag : Byte) (r : Req Unit)
  | settingSet (tag : Byte) (r : Req SettingSet)
  | settingGet (tag : Byte) (r : Req Nat)
  | complianceEnter (tag : Byte) (r : Req Unit)
  | complianceLeave (tag : Byte) (r : Req Unit)
  | noticeClear (tag : Byte) (r : Req (BitVec 16))
  | reset (tag : Byte) (r : Req Unit)
  /-- a request frame whose code lies outside 0x01 to 0x2C (R192) -/
  | unknownRequest (tag : Byte) (code : Byte)
  /-- the bytes of a received frame that R191 has the Link interface drop -/
  | frameDropped (bytes : List Byte)
  /-- the release of PWR_GOOD (R4, TABLE 10-13) -/
  | powerOn
  | powerLoss
  | timeBaseSecond
  | holdEnd
  | dayRollover
  | dayRolloverUnpowered
  | timeBaseLoss
  /-- the idle deadline of one context expires (R46) -/
  | contextTimeout (ctx : Nat)
  | deferredCommit
  | holdSweepStep
  | classSweepStep
  | eventSweepStep
  | sweepCompletion
  | dueProcessing
  | autoRelease
  | disposalEvent
  | programComplete (ch : ChanNo) (pass : Bool)
  /-- a page READ completes: with the page's bytes on PASS, with none on FAIL (TABLE 8-1) -/
  | readComplete (ch : ChanNo) (result : Option (List Byte))
  | eraseComplete (ch : ChanNo) (pass : Bool)
  | suspendComplete (ch : ChanNo) (pass : Bool)
  | resumeComplete (ch : ChanNo) (pass : Bool)
  | identifyComplete (ch : ChanNo) (pass : Bool)
  | operationTimeout (ch : ChanNo)
  | probeStart (ch : ChanNo)
  | channelRestore (ch : ChanNo)
  | owedMediaRecord
  | startUpRecord
  | auditPageWait
  /-- a place of the channel's READ queue has freed, and the verify that waits longest on it takes it (R72) -/
  | verifyReadQueued (ch : ChanNo)
  | linkReset
deriving DecidableEq, Repr

end Sys2Proof
end

