-- ==== Sys2Proof/Machine/State.lean ====
section
/-! DEFINITION. The state of the KC-2300 as plain data, block by block as TABLE 0-1 lists them, and the part as it is before its
first power-on. Tables of index memory are sparse: `Table` lists the entries that differ from what an absent entry is. -/

namespace Sys2Proof.Machine

/-- No rule of the spec stops the part with a fault: a refused request is a reply (R192), and a failure is handled. No command's
meaning raises a fault, so the type has no constructor (log entry 28). -/
inductive Fault where
deriving DecidableEq, Repr

/-- Why a command has no meaning. -/
inductive Refusal where
  /-- raised by an arm of `exec` whose command has no meaning yet; safe: nothing is claimed of the command -/
  | notModelled (mnemonic : String)
deriving DecidableEq, Repr

/-! ### Frames and audit records -/

/-- One field of a payload or a record's subject: `width` bytes holding `value`, most significant byte first (section 10.6). -/
structure Field where
  width : Nat
  value : Nat
deriving DecidableEq, Repr

/-- The status values (TABLE 10-3). -/
inductive Status where
  | ok | accepted | clamped | unchanged | known | send | wait | commitPending | matched | mismatch | busy | unknownRequest
  | badField | badSlot | noContext | clockUnset | domainUnused | indexFull | tableFull | eventTableFull | noSpace | outOfOrder
  | digestMismatch | incomplete | locked | inUse | stale | empty | sweepFull | notBlank | gone | notFound | mediaError
  | offline | mode | auditFull | badContext
deriving DecidableEq, Repr

/-- The frame types the part sends (TABLE 10-1). -/
inductive FrameType where
  | reply | report | notice
deriving DecidableEq, Repr

/-- A frame the part has formed: its header fields and its payload (TABLE 10-7). -/
structure Frame where
  ftype : FrameType
  tag : Byte
  code : Nat
  status : Status
  payload : List Field
deriving DecidableEq, Repr

/-- The audit record kinds (TABLE 9-1). -/
inductive AuditKind where
  | genesis | startUp | itemCommitted | itemDisposed | dispoReleased | matterOpened | matterAmended | matterClosed
  | custodianChanged | sweepDone | classChanged | classCleared | policyChanged | flagsChanged | domainChanged | eventPosted
  | clockSet | clockAdjusted | settingChanged | complianceEntered | complianceLeft | channelFenced | zoneRetired
  | channelRestored
deriving DecidableEq, Repr

/-- An audit record (section 9.1). `since` is no part of its bytes: the elapsed second of the timers at which it was appended, or at
which the last start-up took it as appended, from which the wait of R184 counts (R190 (2), log entry 25). -/
structure Record where
  seq : Nat
  second : Nat
  since : Nat
  kind : AuditKind
  subject : List Field
  chain : BitVec 64
deriving DecidableEq, Repr

/-! ### Retention Clock (chapter 1) -/

/-- The clock states (TABLE 1-1). -/
inductive ClockState where
  | unset | running | held
deriving DecidableEq, Repr

/-- The Retention Clock (section 1.1). -/
structure Clock where
  /-- the archive-second counter -/
  counter : Nat
  /-- the sub-second phase of the time base, in oscillator periods since the last marked second (log entry 10) -/
  phase : Nat
  state : ClockState
  /-- the hold remainder -/
  hold : Nat
  /-- forward-used-today, U -/
  used : Nat
  /-- the validity indicator reports loss -/
  lost : Bool
  /-- the high-water mark, in index memory -/
  hwm : Nat
deriving DecidableEq, Repr

/-! ### Ingest Unit (chapter 2) -/

/-- A running SHA-256 state: the chaining words, the bytes of the unfinished block and the bytes taken so far. -/
structure Sha where
  words : List (BitVec 32)
  block : List Byte
  count : Nat
deriving DecidableEq, Repr

/-- An entry reference (R51). -/
inductive EntryRef where
  | bucket (i : Nat)
  | overflow (i : Nat)
deriving DecidableEq, Repr

/-- What a slot that is not EMPTY holds: declared digest, declared length, entry reference (section 2.1). -/
structure Decl where
  digest : Digest
  length : Nat
  ref : EntryRef
deriving DecidableEq, Repr

/-- A slot of a context (TABLE 2-1). Bytes received are 0 while WAITING and the declared length while WRITING. -/
inductive Slot where
  | empty
  | sending (d : Decl) (received : Nat) (sha : Sha)
  | writing (d : Decl)
  | waiting (d : Decl)
  | ready (d : Decl)
deriving DecidableEq, Repr

/-- The envelope of an item (section 2.1). -/
structure Envelope where
  domain : Nat
  parties : List Key
  sent : Nat
  tags : BitVec 32
  event : Option Key
  segCount : Nat
deriving DecidableEq, Repr

/-- The idle deadline of a context: running to a moment of the timers' elapsed seconds, or suspended (R45). -/
inductive Deadline where
  | running (due : Nat)
  | suspended
deriving DecidableEq, Repr

/-- What a context that is not FREE holds (section 2.1); `committing` tells COMMITTING from RECEIVING. -/
structure OpenCtx where
  committing : Bool
  env : Envelope
  group : Nat
  slots : List Slot
  deadline : Deadline
deriving DecidableEq, Repr

/-- An ingest context: its generation, kept while FREE, and its contents while it is not. -/
structure Ctx where
  gen : Nat
  body : Option OpenCtx
deriving DecidableEq, Repr

/-- The Ingest Unit: sixteen contexts (an absent one is FREE with generation 0) and the commit-ready list (R40). -/
structure Ingest where
  ctxs : Table Ctx
  ready : List Nat
deriving DecidableEq, Repr

/-! ### Segment Table (chapter 3) -/

/-- A slot of a context, as an entry's owner or waiter names it (TABLE 3-1). -/
structure SlotRef where
  ctx : Nat
  gen : Nat
  slot : Nat
deriving DecidableEq, Repr

/-- Where a segment lies: channel, zone, first page, page count (TABLE 3-1). -/
structure Loc where
  chan : ChanNo
  zone : Nat
  first : Nat
  count : Nat
deriving DecidableEq, Repr

/-- A segment entry that is INBOUND or STORED (TABLE 3-1); a FREE entry is absent from its table. -/
structure SegEntry where
  stored : Bool
  digest : Digest
  group : Nat
  length : Nat
  loc : Loc
  refs : Nat
  pinned : Bool
  claims : Nat
  owner : Option SlotRef
  waiters : List SlotRef
deriving DecidableEq, Repr

/-- What has come of one page read of a SEG_READ. -/
inductive ReadPart where
  | pending
  | passed (bytes : List Byte)
  | failed
  | offline
deriving DecidableEq, Repr

/-- A SEG_READ in flight (R69, R70): `skip` is the offset of its first byte in its first page. -/
structure SegRead where
  id : Nat
  tag : Byte
  item : Nat
  skip : Nat
  count : Nat
  parts : List ReadPart
deriving DecidableEq, Repr

/-- A SEG_VERIFY in flight (R71, R72): `next` counts the pages taken, `waiting` says its page read waits for room. -/
structure Verify where
  place : Nat
  tag : Byte
  item : Nat
  digest : Digest
  length : Nat
  loc : Loc
  next : Nat
  sha : Sha
  waiting : Bool
deriving DecidableEq, Repr

/-- The Segment Table: the bucket entries and the overflow list by reference, the reads and verifies in flight, the number
the next SEG_READ takes (the model's own, log entry 25) and the verifies that wait for room, in the order they began to wait. -/
structure Segs where
  buckets : Table SegEntry
  overflow : Table SegEntry
  reads : List SegRead
  nextRead : Nat
  verifies : List Verify
  verifyWait : List Nat
deriving DecidableEq, Repr

/-! ### Policy Unit (chapter 4) -/

/-- The state of a class with the definition it holds (TABLE 4-1). -/
inductive ClassState where
  | undefined
  | defined (d : ClassDef)
  | locked (d : ClassDef)
deriving DecidableEq, Repr

/-- A class record (R74). -/
structure ClassRec where
  state : ClassState
  inUse : Nat
deriving DecidableEq, Repr

/-- A domain record (R82). -/
structure DomainRec where
  active : Bool
  group : Nat
  fallback : Option Nat
  start : Nat
  backdate : Nat
deriving DecidableEq, Repr

/-- The Policy Unit: 64 classes, 16 domains, 512 policy entries and 8 archive flags. -/
structure Policy where
  classes : Table ClassRec
  domains : Table DomainRec
  entries : Table PolicyEntry
  flags : BitVec 8
deriving DecidableEq, Repr

/-! ### Item Index (chapter 5) -/

/-- An expiry value (section 0.5.3). -/
inductive Expiry where
  | day (n : Nat)
  | pending
  | never
deriving DecidableEq, Repr

/-- The remarks of an item record (TABLE 5-1). -/
structure Remarks where
  policyFault : Bool
  classLimit : Bool
  noEventKey : Bool
  sentClamped : Bool
deriving DecidableEq, Repr

/-- One slot of an item's segment list (TABLE 5-1). -/
structure ItemSeg where
  digest : Digest
  length : Nat
  ref : EntryRef
deriving DecidableEq, Repr

/-- The states of an item that is not DISPOSED (TABLE 5-1). -/
inductive LiveState where
  | retained | expiredHeld | eligible | released
deriving DecidableEq, Repr

/-- The fields an item record holds until disposal (TABLE 5-1). -/
structure LiveItem where
  state : LiveState
  sentDay : Nat
  tags : BitVec 32
  flags : BitVec 8
  holdMask : BitVec 64
  holdCount : Nat
  event : Option Key
  parties : List Key
  segs : List ItemSeg
deriving DecidableEq, Repr

/-- An item record is live, or a tombstone with its disposal second (R98). -/
inductive ItemBody where
  | live (l : LiveItem)
  | disposed (second : Nat)
deriving DecidableEq, Repr

/-- An item record (TABLE 5-1); its number is its key in the index. -/
structure ItemRec where
  domain : Nat
  commitSecond : Nat
  classes : List Nat
  expiry : Expiry
  remarks : Remarks
  fingerprint : Digest
  body : ItemBody
deriving DecidableEq, Repr

/-- An event key's entry (R104): its day while POSTED, none while AWAITING, and its item list. -/
structure EventEntry where
  posted : Option Nat
  items : List Nat
deriving DecidableEq, Repr

/-- A sweep request: a kind with its target (TABLE 5-3). -/
inductive SweepReq where
  | hold (m : Nat)
  | cls (c : Nat)
  | event (k : Key)
deriving DecidableEq, Repr

/-- The progress of the running sweep (R112). -/
structure SweepRun where
  limit : Nat
  cursor : Nat
  changed : Nat
deriving DecidableEq, Repr

/-- The Item Index: item records by number, the next item number, the expiry calendar by day, the event key table by key, the
sweep queue and the progress of its head while the head runs. -/
structure Index where
  items : Table ItemRec
  next : Nat
  calendar : Table (List Nat)
  events : Table EventEntry
  sweeps : List SweepReq
  run : Option SweepRun
deriving DecidableEq, Repr

/-! ### Hold Unit (chapter 6) -/

/-- A matter record (TABLE 6-1, R117). -/
inductive Matter where
  | free
  | active (f : MatterFields)
  | lifting (f : MatterFields)
deriving DecidableEq, Repr

/-- A custodian entry (R122). -/
structure Custodian where
  key : Key
  mask : BitVec 64
deriving DecidableEq, Repr

/-- The Hold Unit: the matter table and the custodian table by position. -/
structure Hold where
  matters : Table Matter
  custodians : Table Custodian
deriving DecidableEq, Repr

/-! ### Disposition Unit (chapter 7) -/

/-- The batch record (R136). -/
structure Batch where
  auto : Bool
  second : Nat
  size : Nat
  disposed : Nat
  held : Nat
  retained : Nat
deriving DecidableEq, Repr

/-- An entry of the disposition queue (R141). -/
structure QueueEntry where
  item : Nat
  day : Nat
deriving DecidableEq, Repr

/-- The Disposition Unit (TABLE 7-1). `opportunity` is the model's own: an AUTO release opportunity has arisen and is not yet
settled (R147, log entry 23). -/
structure Dispo where
  queue : List QueueEntry
  list : List Nat
  batch : Option Batch
  duePause : Bool
  autoWait : Bool
  opportunity : Bool
deriving DecidableEq, Repr

/-! ### Media Controller (chapter 8) -/

/-- The states of a data zone (TABLE 8-2); the probe zone is a field of its own. -/
inductive ZoneState where
  | blank | ingestOpen | auditOpen | full | auditClosed | reclaiming | retired
deriving DecidableEq, Repr

/-- A data zone's record in the zone map (R157); `owed` is the retirement-unrecorded flag. -/
structure Zone where
  state : ZoneState
  wp : Nat
  live : Nat
  owed : Bool
deriving DecidableEq, Repr

/-- The channel states (R155). -/
inductive ChanState where
  | inService | fenced | offline
deriving DecidableEq, Repr

/-- The cause held with a fence-unrecorded flag (R171, R173). -/
inductive FenceCause where
  | programFails | timeout
deriving DecidableEq, Repr

/-- A staging page that is filling or queued (R162), with the bytes it holds. -/
structure StagePage where
  zone : Nat
  page : Nat
  data : List Byte
deriving DecidableEq, Repr

/-- A formed audit page: the run of records it holds (section 9.3). -/
structure AuditPage where
  first : Nat
  count : Nat
deriving DecidableEq, Repr

/-- Who takes the result of a page read (R164). -/
inductive Requester where
  | none
  | segRead (id part : Nat)
  | verify (place : Nat)
  /-- AUDIT_READ: its tag, first sequence and count, and the run of records the page holds (R187) -/
  | audit (tag : Byte) (first count pageFirst pageCount : Nat)
deriving DecidableEq, Repr

/-- A page read in a READ queue or in flight (R164). -/
structure PageRead where
  zone : Nat
  page : Nat
  who : Requester
deriving DecidableEq, Repr

/-- The operation a module has in flight (TABLE 8-1). `staged` says that the page's staging page is still held; `live` that
the Audit Unit still waits for the page. Both are false once a link reset has passed over the operation (R178). -/
inductive Op where
  | programIngest (p : StagePage) (staged : Bool)
  | programAudit (zone page : Nat) (p : AuditPage) (live : Bool)
  | read (r : PageRead)
  | erase (zone : Nat)
  | suspend
  | resume
  | identify
  | probeErase
  | probeProgram (page : Nat)
  | probeRead (page : Nat)
deriving DecidableEq, Repr

/-- The erase conditions while an erase is in progress (TABLE 8-4). -/
inductive EraseCond where
  | running | suspending | suspended | resuming
deriving DecidableEq, Repr

/-- An erase in progress: zone, condition, suspend count, suspend-failed mark (R168). `askAfter` says that it was what the module was
doing at a link reset, so that the module is asked at its end and not while it is suspended (R178 (1), log entry 30). -/
structure Erase where
  zone : Nat
  cond : EraseCond
  count : Nat
  failed : Bool
  askAfter : Bool
deriving DecidableEq, Repr

/-- How far a probe has come (R175, R176). -/
inductive ProbeStage where
  | waiting | inFlight | restoring
deriving DecidableEq, Repr

/-- An accepted CHANNEL_PROBE, with the tag its delayed reply echoes. -/
structure Probe where
  tag : Byte
  stage : ProbeStage
deriving DecidableEq, Repr

/-- An upload placed on a channel and not yet wholly programmed (R162): its entry, its pages, and how many have passed. -/
structure Upload where
  ref : EntryRef
  zone : Nat
  first : Nat
  count : Nat
  passed : Nat
deriving DecidableEq, Repr

/-- The arbiter's credits (R166). -/
structure Credits where
  read : Nat
  ingest : Nat
  reclaim : Nat
deriving DecidableEq, Repr

/-- A media channel (R155): state and persistent mark, owed fence record, zone map, staging, work queues, arbiter, erase
condition, consecutive-fail count and probe. `askOwed` says that the module is to be asked to identify itself when the operation
that was in flight at a link reset completes (R178). -/
structure Channel where
  state : ChanState
  markFenced : Bool
  fenceOwed : Option FenceCause
  zones : Table Zone
  probeWp : Nat
  filling : List StagePage
  auditQ : List AuditPage
  ingestQ : List StagePage
  readQ : List PageRead
  reclaimQ : List Nat
  uploads : List Upload
  credits : Credits
  op : Option Op
  erase : Option Erase
  fails : Nat
  probe : Option Probe
  askOwed : Bool
deriving DecidableEq, Repr

/-- The Media Controller: four channels and the last channel used for a placement (R159). -/
structure Media where
  c0 : Channel
  c1 : Channel
  c2 : Channel
  c3 : Channel
  last : ChanNo
deriving DecidableEq, Repr

/-! ### Audit Unit (chapter 9) -/

/-- A page map entry (R186). -/
structure MapEntry where
  first : Nat
  count : Nat
  chan : ChanNo
  zone : Nat
  page : Nat
deriving DecidableEq, Repr

/-- The cause of a START_UP record (R189). -/
inductive StartCause where
  | powerOn | linkReset
deriving DecidableEq, Repr

/-- The START_UP record owed (R189): its cause, whether the time base was found intact, the clock state and the archive second
of start-up. -/
structure StartUpOwed where
  cause : StartCause
  intact : Bool
  clock : ClockState
  second : Nat
deriving DecidableEq, Repr

/-- The Audit Unit: buffer, sequence counter, stored chain value, page map, drain channel last used and owed START_UP mark in
index memory; the drain channel and the held pages are volatile. The outstanding pages stand in the channels. -/
structure Audit where
  buffer : List Record
  counter : Nat
  chain : BitVec 64
  map : List MapEntry
  drainLast : ChanNo
  startOwed : Option StartUpOwed
  drain : Option ChanNo
  held : List AuditPage
deriving DecidableEq, Repr

/-! ### Link interface (chapter 10) -/

/-- Whether the part is powered and takes requests: `starting` holds the channels whose IDENTIFY start-up still awaits, and
the cause of the start-up (R178, R203). -/
inductive Power where
  | off
  | starting (awaited : List ChanNo) (cause : StartCause)
  | on
deriving DecidableEq, Repr

/-- The Link interface: power, notice pending flags (bit n is notice n of TABLE 10-4), the frames formed and not yet sent,
oldest first (R194), and whether a RESET has been answered whose link reset is not yet applied (R203). -/
structure Link where
  power : Power
  flags : BitVec 12
  tx : List Frame
  resetTaken : Bool
deriving DecidableEq, Repr

/-- The archive settings (TABLE 10-5); `auto` is DISPO_MODE AUTO, `notices` is NOTICE_ENABLE. -/
structure Settings where
  allowance : Nat
  timeout : Nat
  auto : Bool
  grace : Nat
  throttle : Nat
  reserve : Nat
  readWeight : Nat
  ingestWeight : Nat
  reclaimWeight : Nat
  notices : BitVec 12
deriving DecidableEq, Repr

/-- The state of the part, block by block. `timer` is the elapsed seconds of the part's timers (R2); `pending` is the queue of
the commands that wait, first in, first out. -/
structure State where
  clock : Clock
  timer : Nat
  ingest : Ingest
  segs : Segs
  policy : Policy
  index : Index
  hold : Hold
  dispo : Dispo
  media : Media
  audit : Audit
  link : Link
  settings : Settings
  compliant : Bool
  pending : List Instr
deriving DecidableEq, Repr

/-! ### The blank part -/

/-- A channel of a blank part: mark IN_SERVICE, every data zone BLANK, the probe zone at write point 0 (R155, R157). -/
def Channel.blank : Channel where
  state := .inService
  markFenced := false
  fenceOwed := none
  zones := []
  probeWp := 0
  filling := []
  auditQ := []
  ingestQ := []
  readQ := []
  reclaimQ := []
  uploads := []
  credits := ⟨4, 8, 2⟩
  op := none
  erase := none
  fails := 0
  probe := none
  askOwed := false

/-- The settings of a blank part (TABLE 10-5). -/
def Settings.blank : Settings where
  allowance := 300
  timeout := 120
  auto := false
  grace := 30
  throttle := 256
  reserve := 32
  readWeight := 4
  ingestWeight := 8
  reclaimWeight := 2
  notices := 0xFFF

/-- The blank part before its first power-on: every table as the chapters give it for a blank part, no power, and nothing
waiting. The time base has never been set valid, so its indicator reports loss (R4). Log entry 1. -/
def State.reset : State where
  clock :=
    { counter := 0, phase := 0, state := .unset, hold := 0, used := 0, lost := true, hwm := 0 }
  timer := 0
  ingest := { ctxs := [], ready := [] }
  segs := { buckets := [], overflow := [], reads := [], nextRead := 0, verifies := [], verifyWait := [] }
  policy := { classes := [], domains := [], entries := [], flags := 0 }
  index := { items := [], next := 1, calendar := [], events := [], sweeps := [], run := none }
  hold := { matters := [], custodians := [] }
  dispo := { queue := [], list := [], batch := none, duePause := false, autoWait := false, opportunity := false }
  media := { c0 := .blank, c1 := .blank, c2 := .blank, c3 := .blank, last := 3 }
  audit :=
    { buffer := [], counter := 0, chain := 0, map := [], drainLast := 0, startOwed := none, drain := none, held := [] }
  link := { power := .off, flags := 0, tx := [], resetTaken := false }
  settings := .blank
  compliant := false
  pending := []

end Sys2Proof.Machine
end

