-- ==== Sys2Proof/Machine/Ops.lean ====
section
/-! DEFINITION. The named operations over the tables of index memory, the contexts, the channels and the segment entries: every
read and write of a table goes through these. -/

namespace Sys2Proof

/-! ### Tables -/

/-- The entry a table lists for key `k`. -/
def Table.find {α : Type} : Table α → Nat → Option α
  | [], _ => none
  | (j, v) :: t, k => if k = j then some v else Table.find t k

/-- The table with `v` under key `k`, keys in rising order. -/
def Table.put {α : Type} : Table α → Nat → α → Table α
  | [], k, v => [(k, v)]
  | (j, w) :: t, k, v => if k < j then (k, v) :: (j, w) :: t else if k = j then (k, v) :: t else (j, w) :: Table.put t k v

/-- The table without the entry of key `k`. -/
def Table.del {α : Type} (t : Table α) (k : Nat) : Table α := t.filter (fun e => e.1 != k)

/-- The value of key `k` in a table whose absent entries hold `d`. -/
def Table.get {α : Type} (d : α) (t : Table α) (k : Nat) : α := (Table.find t k).getD d

/-- Write key `k` in a table whose absent entries hold `d`: a value equal to `d` leaves the list, so that equal tables are
equal data. -/
def Table.set {α : Type} [DecidableEq α] (d : α) (t : Table α) (k : Nat) (v : α) : Table α :=
  if v = d then Table.del t k else Table.put t k v

/-- Apply `f` to every listed value. -/
def Table.mapVal {α : Type} (f : α → α) (t : Table α) : Table α := t.map (fun e => (e.1, f e.2))

/-- The keys of a table rise strictly. -/
def Table.sorted {α : Type} : Table α → Bool
  | [] => true
  | [_] => true
  | (j, _) :: (k, w) :: t => decide (j < k) && Table.sorted ((k, w) :: t)

/-- The lowest of the `n` keys from `k` on that the table does not list. -/
def Table.firstFree {α : Type} (t : Table α) (k : Nat) : Nat → Option Nat
  | 0 => none
  | n + 1 => if (Table.find t k).isNone then some k else Table.firstFree t (k + 1) n

namespace Machine

/-! ### Flag masks -/

/-- The new value of a set of eight flags under a set mask and a clear mask: set, clear, toggle where both name a flag, keep
where neither does (R85, R89). -/
def maskFlags (old set clear : BitVec 8) : BitVec 8 :=
  (old &&& ~~~set &&& ~~~clear) ||| (set &&& ~~~clear) ||| (set &&& clear &&& ~~~old)

/-- The number of bits set among the lowest `n` of a mask. -/
def popBelow {w : Nat} (m : BitVec w) : Nat → Nat
  | 0 => 0
  | n + 1 => popBelow m n + (if m.getLsbD n then 1 else 0)

/-- The number of matters in a hold mask (R96). -/
def popCount (m : BitVec 64) : Nat := popBelow m 64

/-- The mask with the bit of one matter set. -/
def bit64 (n : Nat) : BitVec 64 := (1#64) <<< n

/-! ### Channels -/

/-- The channel of a number. -/
def Media.get (m : Media) (c : ChanNo) : Channel :=
  match c.val with
  | 0 => m.c0
  | 1 => m.c1
  | 2 => m.c2
  | _ => m.c3

/-- Write one channel. -/
def Media.set (m : Media) (c : ChanNo) (v : Channel) : Media :=
  match c.val with
  | 0 => { m with c0 := v }
  | 1 => { m with c1 := v }
  | 2 => { m with c2 := v }
  | _ => { m with c3 := v }

/-- The four channel numbers in order. -/
def chanNos : List ChanNo := [0, 1, 2, 3]

/-- A data zone of a blank part (R157). -/
def Zone.blank : Zone := { state := .blank, wp := 0, live := 0, owed := false }

/-- A data zone's record. -/
def Channel.zone (c : Channel) (z : Nat) : Zone := Table.get Zone.blank c.zones z

/-- Write a data zone's record. -/
def Channel.setZone (c : Channel) (z : Nat) (v : Zone) : Channel := { c with zones := Table.set Zone.blank c.zones z v }

/-- The lowest data zone in a state other than BLANK (every such zone is listed). -/
def Channel.zoneIn (c : Channel) (st : ZoneState) : Option Nat :=
  (c.zones.find? (fun e => decide (e.2.state = st))).map (·.1)

/-- The lowest of the `n` zones from `z` on whose state is BLANK. -/
def Channel.blankFrom (c : Channel) (z : Nat) : Nat → Option Nat
  | 0 => none
  | n + 1 => if (c.zone z).state = .blank then some z else Channel.blankFrom c (z + 1) n

/-- The lowest-numbered BLANK data zone (R159, R163). -/
def Channel.lowestBlank (c : Channel) : Option Nat := c.blankFrom 0 Config.dataZones

/-- The number of data zones in a state: those listed, and for BLANK all that are listed in no other state. -/
def Channel.countZones (c : Channel) (st : ZoneState) : Nat :=
  if st = .blank then Config.dataZones - c.zones.countP (fun e => decide (e.2.state ≠ .blank))
  else c.zones.countP (fun e => decide (e.2.state = st))

/-- F: the BLANK data zones on IN_SERVICE channels (R161). -/
def Media.freeZones (m : Media) : Nat :=
  (chanNos.map (fun i => if (m.get i).state = .inService then (m.get i).countZones .blank else 0)).sum

/-! ### Contexts -/

/-- A context of a number: FREE with generation 0 where nothing is listed. -/
def Ctx.free : Ctx := { gen := 0, body := none }

/-- The context of a number. -/
def Ingest.ctx (g : Ingest) (n : Nat) : Ctx := Table.get Ctx.free g.ctxs n

/-- Write a context. -/
def Ingest.setCtx (g : Ingest) (n : Nat) (c : Ctx) : Ingest := { g with ctxs := Table.set Ctx.free g.ctxs n c }

/-- What the context a reference names holds: none unless the number lies from 0 to 15, the generation is current and the
context is not FREE (R24). -/
def Ingest.named (g : Ingest) (r : CtxRef) : Option OpenCtx :=
  if r.ctx < Config.contexts ∧ (g.ctx r.ctx).gen = r.gen then (g.ctx r.ctx).body else none

/-- Write what an open context holds, keeping its generation. -/
def Ingest.setOpen (g : Ingest) (n : Nat) (o : OpenCtx) : Ingest := g.setCtx n { g.ctx n with body := some o }

/-- The number of contexts in RECEIVING or COMMITTING (R26). -/
def Ingest.openCount (g : Ingest) : Nat :=
  ((List.range Config.contexts).filter (fun n => (g.ctx n).body.isSome)).length

/-- The number of open contexts that name a domain (R84). -/
def Ingest.openIn (g : Ingest) (d : Nat) : Nat :=
  ((List.range Config.contexts).filter (fun n => match (g.ctx n).body with | some o => o.env.domain == d | none => false)).length

/-- The lowest-numbered FREE context (R27). -/
def Ingest.lowestFree (g : Ingest) : Option Nat := (List.range Config.contexts).find? (fun n => (g.ctx n).body.isNone)

/-- Every slot is READY. -/
def OpenCtx.allReady (o : OpenCtx) : Bool := o.slots.all (fun s => match s with | .ready _ => true | _ => false)

/-! ### Segment entries -/

/-- The entry a reference names: none where it is FREE. -/
def Segs.entry (t : Segs) : EntryRef → Option SegEntry
  | .bucket i => Table.find t.buckets i
  | .overflow i => Table.find t.overflow i

/-- Write an entry that is not FREE. -/
def Segs.put (t : Segs) (r : EntryRef) (e : SegEntry) : Segs :=
  match r with
  | .bucket i => { t with buckets := Table.put t.buckets i e }
  | .overflow i => { t with overflow := Table.put t.overflow i e }

/-- Make an entry FREE. -/
def Segs.del (t : Segs) (r : EntryRef) : Segs :=
  match r with
  | .bucket i => { t with buckets := Table.del t.buckets i }
  | .overflow i => { t with overflow := Table.del t.overflow i }

/-- Every entry in use with its reference, buckets first. -/
def Segs.all (t : Segs) : List (EntryRef × SegEntry) :=
  t.buckets.map (fun e => (EntryRef.bucket e.1, e.2)) ++ t.overflow.map (fun e => (EntryRef.overflow e.1, e.2))

/-- The first 17 bits of a digest, most significant bit of the first byte first (R52). -/
def digest17 (d : Digest) : Nat := d.toNat / 2 ^ 239

/-- The bucket of a content (R52). -/
def bucketOf (d : Digest) (group : Nat) : Nat := (digest17 d + Config.groupStride * group) % Config.buckets

/-- The page count of a segment: its length divided by 16,384, rounded up (section 0.5.4). -/
def pagesOf (length : Nat) : Nat := (length + (Config.pageBytes - 1)) / Config.pageBytes

/-- The references of the ways of a bucket, lowest first. -/
def waysOf (b : Nat) : List EntryRef := (List.range Config.ways).map (fun w => EntryRef.bucket (b * Config.ways + w))

/-- The lookup of R53: the entry of the content's bucket with equal digest, length and group. -/
def Segs.lookup (t : Segs) (d : Digest) (length group : Nat) : Option EntryRef :=
  (waysOf (bucketOf d group)).find? (fun r =>
    match t.entry r with
    | some e => decide (e.digest = d ∧ e.length = length ∧ e.group = group)
    | none => false)

/-- The entry an insert would take: the lowest FREE way of the bucket, else the lowest FREE overflow entry (R54). -/
def Segs.freeEntry (t : Segs) (d : Digest) (group : Nat) : Option EntryRef :=
  match (waysOf (bucketOf d group)).find? (fun r => (t.entry r).isNone) with
  | some r => some r
  | none => (Table.firstFree t.overflow 0 Config.overflow).map EntryRef.overflow

/-! ### Policy Unit, Item Index, Hold Unit -/

/-- A class record: UNDEFINED and not in use where nothing is listed (R74). -/
def Policy.cls (p : Policy) (c : Nat) : ClassRec := Table.get { state := .undefined, inUse := 0 } p.classes c

/-- Write a class record. -/
def Policy.setCls (p : Policy) (c : Nat) (r : ClassRec) : Policy :=
  { p with classes := Table.set { state := .undefined, inUse := 0 } p.classes c r }

/-- A domain record of a blank part (R82). -/
def DomainRec.blank : DomainRec := { active := false, group := 0, fallback := none, start := 0, backdate := 30 }

/-- A domain record. -/
def Policy.domain (p : Policy) (d : Nat) : DomainRec := Table.get DomainRec.blank p.domains d

/-- Write a domain record. -/
def Policy.setDomain (p : Policy) (d : Nat) (r : DomainRec) : Policy :=
  { p with domains := Table.set DomainRec.blank p.domains d r }

/-- A policy entry: UNUSED where nothing is listed (R86). -/
def Policy.entry (p : Policy) (e : Nat) : PolicyEntry := Table.get .unused p.entries e

/-- The definition of a class, where it has one. -/
def ClassState.defn : ClassState → Option ClassDef
  | .undefined => none
  | .defined d => some d
  | .locked d => some d

/-- An item's record; none where the number has not been assigned. -/
def Index.item (x : Index) (n : Nat) : Option ItemRec := Table.find x.items n

/-- Write an item's record. -/
def Index.setItem (x : Index) (n : Nat) (r : ItemRec) : Index := { x with items := Table.put x.items n r }

/-- The item list of a calendar day. -/
def Index.day (x : Index) (d : Nat) : List Nat := Table.get [] x.calendar d

/-- Insert an item at the tail of a day's list (R102 (1)). -/
def Index.insertDay (x : Index) (d i : Nat) : Index := { x with calendar := Table.set [] x.calendar d (x.day d ++ [i]) }

/-- Remove an item from a day's list; a list left empty leaves the map (R102 (2)). -/
def Index.removeDay (x : Index) (d i : Nat) : Index :=
  { x with calendar := Table.set [] x.calendar d ((x.day d).filter (fun j => j != i)) }

/-- Remove an item from the list of its expiry, where that is a day. -/
def Index.uncalendar (x : Index) (e : Expiry) (i : Nat) : Index :=
  match e with
  | .day d => x.removeDay d i
  | _ => x

/-- Insert an item under its expiry, where that is a day. -/
def Index.toCalendar (x : Index) (e : Expiry) (i : Nat) : Index :=
  match e with
  | .day d => x.insertDay d i
  | _ => x

/-- The due set in day order and list order: the items under days no later than today (R103). -/
def Index.dueSet (x : Index) (today : Nat) : List Nat :=
  ((x.calendar.takeWhile (fun e => decide (e.1 ≤ today))).map (·.2)).flatten

/-- The event key entry of a key. -/
def Index.event (x : Index) (k : Key) : Option EventEntry := Table.find x.events k.toNat

/-- Write an event key entry. -/
def Index.setEvent (x : Index) (k : Key) (e : EventEntry) : Index := { x with events := Table.put x.events k.toNat e }

/-- A matter record: FREE where nothing is listed (R117). -/
def Hold.matter (h : Hold) (m : Nat) : Matter := Table.get .free h.matters m

/-- Write a matter record. -/
def Hold.setMatter (h : Hold) (m : Nat) (v : Matter) : Hold := { h with matters := Table.set .free h.matters m v }

/-- The position and mask of a key's custodian entry (R122). -/
def Hold.find (h : Hold) (k : Key) : Option (Nat × BitVec 64) :=
  (h.custodians.find? (fun e => e.2.key == k)).map (fun e => (e.1, e.2.mask))

/-- The mask stored for a key: empty where the key has no entry (R123). -/
def Hold.maskOf (h : Hold) (k : Key) : BitVec 64 := ((h.find k).map (·.2)).getD 0

/-! ### The clock's day and the audit slots -/

/-- The archive day of an archive second (TABLE 0-3). -/
def dayOf (second : Nat) : Nat := second / Config.daySeconds

/-- Today: the archive day of the counter. -/
def State.today (s : State) : Nat := dayOf s.clock.counter

/-- The audit buffer has a free slot (R181). -/
def State.slotFree (s : State) : Bool := decide (s.audit.buffer.length < Config.auditBuffer)

/-- The part is powered and its start-up has ended, so that requests and the part's own events are taken (R191, R203). -/
def State.taking (s : State) : Bool := decide (s.link.power = .on)

end Machine
end Sys2Proof
end

