-- ==== Sys2Proof/Machine/Operands.lean ====
section
/-! DEFINITION. The fields of payloads and of audit subjects: their widths and encodings (sections 10.6 and R204). Widths the
section does not give are named in log entry 13. -/

namespace Sys2Proof.Machine

/-- The `w` bytes of a value, most significant first (section 0.5.1). -/
def beBytes : Nat → Nat → List Byte
  | 0, _ => []
  | w + 1, v => BitVec.ofNat 8 (v / 256 ^ w) :: beBytes w v

/-- The value of a byte sequence, most significant byte first. -/
def ofBytes (bs : List Byte) : Nat := bs.foldl (fun a b => a * 256 + b.toNat) 0

/-- The bytes of a list of fields in order. -/
def fieldBytes (fs : List Field) : List Byte := (fs.map (fun f => beBytes f.width f.value)).flatten

namespace Fld

/-- A one-byte field: domain, class, matter, channel, state, status, cause, mode, remarks, hold count (TABLE 10-12). -/
def u8 (n : Nat) : Field := { width := 1, value := n }
/-- A two-byte field: slot, page, page count, byte count, zone, domain mask (TABLE 10-12, R204). -/
def u16 (n : Nat) : Field := { width := 2, value := n }
/-- A three-byte field: an item number (TABLE 10-12). -/
def u24 (n : Nat) : Field := { width := 3, value := n }
/-- A four-byte field: day, count, setting value, offset, length, position (TABLE 10-12, R204). -/
def u32 (n : Nat) : Field := { width := 4, value := n }
/-- A six-byte field: a sequence number (R204). -/
def u48 (n : Nat) : Field := { width := 6, value := n }
/-- An eight-byte field: archive second, key, matter mask, chain value (TABLE 10-12). -/
def u64 (n : Nat) : Field := { width := 8, value := n }
/-- A digest or fingerprint: 32 bytes. -/
def digest (d : Digest) : Field := { width := 32, value := d.toNat }
/-- An indication of yes or no: one byte (R204). -/
def yes (b : Bool) : Field := u8 b.toNat
/-- The bytes of a data field, one field a byte. -/
def bytes (bs : List Byte) : List Field := bs.map (fun b => u8 b.toNat)
/-- An optional field: a presence byte, and 0x00 bytes where it is absent (section 10.6). -/
def opt (w : Nat) (v : Option Nat) : List Field := [yes v.isSome, { width := w, value := v.getD 0 }]
/-- A list of values, preceded by its number of entries in 2 bytes (R204). -/
def list (fs : List Field) : List Field := u16 fs.length :: fs
/-- A list of entries of several fields each, preceded by its number of entries in 2 bytes (R204). -/
def rows (xs : List (List Field)) : List Field := u16 xs.length :: xs.flatten
/-- A context reference: the context number, then the generation (section 10.6). -/
def ctxRef (c gen : Nat) : List Field := [u8 c, u16 gen]

/-- An entry reference: 0x00 BUCKET or 0x01 OVERFLOW, then the index in 3 bytes (R204). -/
def entryRef : EntryRef → List Field
  | .bucket i => [u8 0, u24 i]
  | .overflow i => [u8 1, u24 i]

/-- An expiry: a kind, then a day that is 0 unless the kind is day (section 10.6). -/
def expiry : Expiry → List Field
  | .day n => [u8 0, u32 n]
  | .pending => [u8 1, u32 0]
  | .never => [u8 2, u32 0]

/-- The remarks byte (section 10.6). -/
def remarks (r : Remarks) : Field :=
  u8 (1 * r.policyFault.toNat + 2 * r.classLimit.toNat + 4 * r.noEventKey.toNat + 8 * r.sentClamped.toNat)

/-- A class set: the number of classes, then four classes in order of assignment, unused bytes 0xFF. TABLE 10-11 gives the 0xFF for the
COMMITTED report; that the replies of ITEM_COMMIT and ITEM_READ and the records ITEM_COMMITTED and ITEM_DISPOSED have it too is a DESIGN
CHOICE (log entry 13). -/
def classSet (cs : List Nat) : List Field :=
  u8 cs.length :: ((cs ++ List.replicate (4 - cs.length) 0xFF).take 4).map u8

/-- A location: channel, zone, first page, page count (R100). -/
def loc (l : Loc) : List Field := [u8 l.chan.val, u16 l.zone, u16 l.first, u16 l.count]

/-- A date: year, month, day of month (section 0.5.2). -/
def date (d : Nat × Nat × Nat) : List Field := [u16 d.1, u8 d.2.1, u8 d.2.2]

/-- The clock states in the order of TABLE 1-1. -/
def clockState : ClockState → Field
  | .unset => u8 0
  | .running => u8 1
  | .held => u8 2

/-- The context states in the order of TABLE 2-3. -/
def ctxState : Option OpenCtx → Field
  | none => u8 0
  | some o => if o.committing then u8 2 else u8 1

/-- The anchor kinds in the order of R74. -/
def anchor : AnchorKind → Nat
  | .ingest => 0
  | .sent => 1
  | .event => 2

/-- A class definition: anchor, Py, Pm, Pd in 2 bytes, Fd in 2 bytes, permanent flag: the 8 bytes of section 10.6. -/
def classDef (d : ClassDef) : List Field :=
  [u8 (anchor d.anchor), u8 d.py, u8 d.pm, u16 d.pd, u16 d.fd, yes d.permanent]

/-- A class state in the order of TABLE 4-1. -/
def classState : ClassState → Nat
  | .undefined => 0
  | .defined _ => 1
  | .locked _ => 2

/-- A class state and its definition, 0x00 bytes behind a presence byte where it has none. -/
def classStateDef (s : ClassState) : List Field :=
  u8 (classState s) ::
    match s.defn with
    | some d => yes true :: classDef d
    | none => [yes false, { width := 8, value := 0 }]

/-- A domain record in the order of R82. The widths of the dedup group (1 byte), the start entry (2) and the backdate limit (4) are not
given by section 10.6: DESIGN CHOICE, log entry 13. -/
def domainRec (r : DomainRec) : List Field :=
  [yes r.active, u8 r.group] ++ opt 1 r.fallback ++ [u16 r.start, u32 r.backdate]

/-- A policy test: its number in TABLE 4-2 and its operand, 0 where it has none. -/
def policyTest : PolicyTest → List Field
  | .always => [u8 0, u32 0]
  | .domain d => [u8 1, u32 d]
  | .tag n => [u8 2, u32 n]
  | .partiesAtLeast n => [u8 3, u32 n]
  | .segmentsAtLeast n => [u8 4, u32 n]
  | .sizeAtLeast k => [u8 5, u32 k]
  | .hasEventKey => [u8 6, u32 0]
  | .itemFlag f => [u8 7, u32 f]
  | .archiveFlag f => [u8 8, u32 f]
  | .anyCustodian => [u8 9, u32 0]

/-- A policy action: its number in TABLE 4-3 and its operand; FLAGS carries its set mask, then its clear mask. -/
def policyAction : PolicyAction → List Field
  | .cls c => [u8 0, u32 c]
  | .flags s c => [u8 1, u32 (s.toNat * 256 + c.toNat)]
  | .goto e => [u8 2, u32 e]
  | .call e => [u8 3, u32 e]
  | .ret => [u8 4, u32 0]
  | .stop => [u8 5, u32 0]

/-- A policy entry: UNUSED, or USED with test, sense and action in the order of R86. -/
def policyEntry : PolicyEntry → List Field
  | .unused => [u8 0]
  | .used t w a => u8 1 :: policyTest t ++ [u8 (if w then 0 else 1)] ++ policyAction a

/-- The fields of a matter: domain mask, optional range, all-parties flag (R117); bit order and widths: log entries 39 and 13. -/
def matterFields (f : MatterFields) : List Field :=
  [u16 f.domains.toNat, yes f.range.isSome, u32 ((f.range.map (·.1)).getD 0), u32 ((f.range.map (·.2)).getD 0), yes f.allParties]

/-- A matter record: its state in the order of TABLE 6-1, then its fields while ACTIVE or LIFTING; of a FREE matter the state alone (R134,
log entry 13). -/
def matter : Matter → List Field
  | .free => [u8 0]
  | .active f => u8 1 :: matterFields f
  | .lifting f => u8 2 :: matterFields f

/-- An event key's state and day before a request, of which it may be absent (R104, R107): a presence byte of the key, its state, 0 where it
is absent, then a presence byte of the day and the day. The grouping is a DESIGN CHOICE (log entry 13). -/
def eventState (e : Option EventEntry) : List Field :=
  match e with
  | none => [yes false, u8 0] ++ opt 4 none
  | some v => [yes true, u8 (if v.posted.isSome then 1 else 0)] ++ opt 4 v.posted

/-- A sweep's kind in the order of TABLE 5-3 and its target. -/
def sweepReq : SweepReq → List Field
  | .hold m => [u8 0, u8 m]
  | .cls c => [u8 1, u8 c]
  | .event k => [u8 2, u64 k.toNat]

/-- The states of an item in the order of TABLE 5-1. -/
def liveState : LiveState → Field
  | .retained => u8 0
  | .expiredHeld => u8 1
  | .eligible => u8 2
  | .released => u8 3

/-- The channel states in the order of R155. -/
def chanState : ChanState → Field
  | .inService => u8 0
  | .fenced => u8 1
  | .offline => u8 2

/-- The batch record in the order of TABLE 7-1. -/
def batch (b : Batch) : List Field :=
  [yes b.auto, u64 b.second, u32 b.size, u32 b.disposed, u32 b.held, u32 b.retained]

end Fld

/-! ### Codes -/

/-- The value of a status (TABLE 10-3). -/
def Status.code : Status → Nat
  | .ok => 0x00 | .accepted => 0x01 | .clamped => 0x02 | .unchanged => 0x03 | .known => 0x04 | .send => 0x05 | .wait => 0x06
  | .commitPending => 0x07 | .matched => 0x08 | .mismatch => 0x09 | .busy => 0x0A | .unknownRequest => 0x0B
  | .badField => 0x0C | .badSlot => 0x0D | .noContext => 0x0E | .clockUnset => 0x0F | .domainUnused => 0x10
  | .indexFull => 0x11 | .tableFull => 0x12 | .eventTableFull => 0x13 | .noSpace => 0x14 | .outOfOrder => 0x15
  | .digestMismatch => 0x16 | .incomplete => 0x17 | .locked => 0x18 | .inUse => 0x19 | .stale => 0x1A | .empty => 0x1B
  | .sweepFull => 0x1C | .notBlank => 0x1D | .gone => 0x1E | .notFound => 0x1F | .mediaError => 0x20 | .offline => 0x21
  | .mode => 0x22 | .auditFull => 0x23 | .badContext => 0x24

/-- The byte of a frame type (TABLE 10-7). -/
def FrameType.code : FrameType → Nat
  | .reply => 0x02
  | .report => 0x03
  | .notice => 0x04

/-- The byte of an audit record kind (TABLE 10-12). -/
def AuditKind.code : AuditKind → Nat
  | .genesis => 0x00 | .startUp => 0x01 | .itemCommitted => 0x02 | .itemDisposed => 0x03 | .dispoReleased => 0x04
  | .matterOpened => 0x05 | .matterAmended => 0x06 | .matterClosed => 0x07 | .custodianChanged => 0x08 | .sweepDone => 0x09
  | .classChanged => 0x0A | .classCleared => 0x0B | .policyChanged => 0x0C | .flagsChanged => 0x0D | .domainChanged => 0x0E
  | .eventPosted => 0x0F | .clockSet => 0x10 | .clockAdjusted => 0x11 | .settingChanged => 0x12 | .complianceEntered => 0x13
  | .complianceLeft => 0x14 | .channelFenced => 0x15 | .zoneRetired => 0x16 | .channelRestored => 0x17

/-- The first 248 bytes of an audit record: sequence, second, kind, subject, then 0x00 bytes (TABLE 10-12). -/
def recordBody (seq second : Nat) (kind : AuditKind) (subject : List Field) : List Byte :=
  let head := beBytes 6 seq ++ beBytes 8 second ++ beBytes 1 kind.code ++ fieldBytes subject
  (head ++ List.replicate (248 - head.length) 0).take 248

/-- The 256 bytes of an audit record (TABLE 10-12). -/
def Record.bytes (r : Record) : List Byte := recordBody r.seq r.second r.kind r.subject ++ beBytes 8 r.chain.toNat

end Sys2Proof.Machine
end

