-- ==== Sys2Proof/Machine/Digest.lean ====
section
/-! DEFINITION. The digest unit's SHA-256 (sections 0.5.4 and 2.4; the algorithm is the public standard's, log entry 5) and the
CRC-32 of the control link (R191). -/

namespace Sys2Proof.Machine

/-- The largest `x` of `n` bits, above bits already found in `x`, whose `k`-th power is at most `v`: one bit at a time from the top. -/
def rootBits (k v : Nat) : Nat → Nat → Nat
  | 0, x => x
  | n + 1, x => rootBits k v n (if (x + 2 ^ n) ^ k ≤ v then x + 2 ^ n else x)

/-- The first 32 bits of the fractional part of the `k`-th root of a number below 2^15. -/
def rootFraction (k p : Nat) : BitVec 32 := BitVec.ofNat 32 (rootBits k (p * 2 ^ (32 * k)) 40 0)

/-- The first 64 primes, 2 to 311: the numbers below 312 that no prime below 18 but themselves divides. -/
def digestPrimes : List Nat :=
  (List.range 312).filter (fun n => 1 < n && [2, 3, 5, 7, 11, 13, 17].all (fun p => n == p || n % p != 0))

/-- The round constants of SHA-256: from the cube roots of the first 64 primes. -/
def shaK : List (BitVec 32) := digestPrimes.map (rootFraction 3)

/-- The chaining words a digest starts with: from the square roots of the first 8 primes. -/
def shaInit : List (BitVec 32) := (digestPrimes.take 8).map (rootFraction 2)

/-- The exclusive or of a word turned right by each of three distances: the mixing functions of SHA-256 on chaining words. -/
def turn3 (x : BitVec 32) (i j k : Nat) : BitVec 32 := x.rotateRight i ^^^ x.rotateRight j ^^^ x.rotateRight k

/-- The mixing functions of SHA-256 on message words: two turns and a shift. -/
def turnShift (x : BitVec 32) (i j k : Nat) : BitVec 32 := x.rotateRight i ^^^ x.rotateRight j ^^^ (x >>> k)

/-- The words of a block, most significant byte first. -/
def wordsOf : List Byte → List (BitVec 32)
  | a :: b :: c :: d :: r => BitVec.ofNat 32 (ofBytes [a, b, c, d]) :: wordsOf r
  | _ => []

/-- The window of sixteen message words, moved on by one word. -/
def nextWindow (w : List (BitVec 32)) : List (BitVec 32) :=
  w.drop 1 ++ [w.getD 0 0 + turnShift (w.getD 1 0) 7 18 3 + w.getD 9 0 + turnShift (w.getD 14 0) 17 19 10]

/-- One round on the chaining words: the first argument is the sum of the round's constant and its message word. -/
def shaRound (kw : BitVec 32) : List (BitVec 32) → List (BitVec 32)
  | [a, b, c, d, e, f, g, h] =>
    let choice := (e &&& f) ||| (~~~e &&& g)
    let majority := (a &&& b) ||| (c &&& (a ||| b))
    let x := h + turn3 e 6 11 25 + choice + kw
    [x + turn3 a 2 13 22 + majority, a, b, c, d + x, e, f, g]
  | v => v

/-- The rounds over the window of message words: one round constant is consumed a round. -/
def shaRounds : List (BitVec 32) → List (BitVec 32) → List (BitVec 32) → List (BitVec 32)
  | [], _, v => v
  | k :: ks, w, v => shaRounds ks (nextWindow w) (shaRound (k + w.headD 0) v)

/-- The compression of one 64-byte block into the chaining words. -/
def shaBlock (h : List (BitVec 32)) (block : List Byte) : List (BitVec 32) :=
  List.zipWith (· + ·) h (shaRounds shaK (wordsOf block) h)

/-- A fresh running digest (R29). -/
def Sha.start : Sha := { words := shaInit, block := [], count := 0 }

/-- One byte into a running digest. -/
def Sha.byte (s : Sha) (b : Byte) : Sha :=
  if s.block.length = 63 then { words := shaBlock s.words (s.block ++ [b]), block := [], count := s.count + 1 }
  else { s with block := s.block ++ [b], count := s.count + 1 }

/-- Bytes into a running digest, first to last (section 2.4). -/
def Sha.update (s : Sha) (bs : List Byte) : Sha := bs.foldl Sha.byte s

/-- The padding that ends a message of `n` bytes: 0x80, zeros, and the bit length in 8 bytes. -/
def shaPad (n : Nat) : List Byte := 0x80 :: (List.replicate ((119 - n % 64) % 64) 0 ++ beBytes 8 (8 * n))

/-- The digest of the bytes taken so far. -/
def Sha.finish (s : Sha) : Digest :=
  BitVec.ofNat 256 ((s.update (shaPad s.count)).words.foldl (fun a w => a * 2 ^ 32 + w.toNat) 0)

/-- The SHA-256 value of a byte sequence (section 0.5.4). -/
def sha256 (bs : List Byte) : Digest := (Sha.start.update bs).finish

/-- The bytes of a digest. -/
def digestBytes (d : Digest) : List Byte := beBytes 32 d.toNat

/-- One bit of the reflected CRC-32 with generator 0x04C11DB7 (R191). -/
def crcBit (c : BitVec 32) : BitVec 32 := if c.getLsbD 0 then (c >>> 1) ^^^ 0xEDB88320 else c >>> 1

/-- One byte into the CRC, least significant bit first (R191). -/
def crcByte (c : BitVec 32) (b : Byte) : BitVec 32 :=
  crcBit (crcBit (crcBit (crcBit (crcBit (crcBit (crcBit (crcBit (c ^^^ b.setWidth 32))))))))

/-- The CRC-32 of a byte sequence (R191). -/
def crc32 (bs : List Byte) : BitVec 32 := (bs.foldl crcByte 0xFFFFFFFF) ^^^ 0xFFFFFFFF

/-- The chain value of a record: the first 8 bytes of SHA-256 over the previous chain value and the record's bytes 0 to 247
(R179 (4)). -/
def chainOf (prev : BitVec 64) (body : List Byte) : BitVec 64 :=
  BitVec.ofNat 64 ((sha256 (beBytes 8 prev.toNat ++ body)).toNat / 2 ^ 192)

/-- The fingerprint of an item: SHA-256 over its slot digests in slot order (R42 (7)). -/
def fingerprintOf (ds : List Digest) : Digest := sha256 ((ds.map digestBytes).flatten)

end Sys2Proof.Machine
end

