-- ==== Sys2Proof/Machine/Flags.lean ====
section
/-! DEFINITION. The Link interface's frames: notice pending flags (section 10.2), replies, reports and NOTICE frames, the frame
bytes, and how a request is taken (R191 to R195). -/

namespace Sys2Proof.Machine

/-- What a command's meaning answers. -/
abbrev Out := Host.Outcome State Fault Refusal

/-- The notice kinds (TABLE 10-4). -/
inductive Notice where
  | auditHalf | auditFull | spaceLow | spaceReserve | channelFenced | channelOffline | sweepDone | dispoReady | disposalDone
  | policyFault | clockUnset | dayRollover
deriving DecidableEq, Repr

/-- The bit of a notice kind (TABLE 10-4). -/
def Notice.bit : Notice → Nat
  | .auditHalf => 0 | .auditFull => 1 | .spaceLow => 2 | .spaceReserve => 3 | .channelFenced => 4 | .channelOffline => 5
  | .sweepDone => 6 | .dispoReady => 7 | .disposalDone => 8 | .policyFault => 9 | .clockUnset => 10 | .dayRollover => 11

/-- A NOTICE frame: the pending mask and the enabled mask, 2 bytes each (TABLE 10-7). -/
def noticeFrame (flags enabled : BitVec 12) : Frame :=
  { ftype := .notice, tag := 0, code := 0, status := .ok, payload := [Fld.u16 flags.toNat, Fld.u16 enabled.toNat] }

/-- Raise a notice: its flag is set, and where it goes from clear to set and the kind is enabled a NOTICE frame is formed with
the mask as it then stands (R195). -/
def Link.raise (enabled : BitVec 12) (n : Notice) (l : Link) : Link :=
  if l.flags.getLsbD n.bit then l
  else
    let flags := l.flags ||| ((1#12) <<< n.bit)
    { l with flags, tx := if enabled.getLsbD n.bit then l.tx ++ [noticeFrame flags enabled] else l.tx }

/-- Raise a notice of the part. -/
def State.raise (s : State) (n : Notice) : State := { s with link := s.link.raise s.settings.notices n }

/-- Raise a notice where a condition holds. -/
def State.raiseIf (s : State) (c : Bool) (n : Notice) : State := if c then s.raise n else s

/-- Form a frame: it joins the tail of the frames not yet sent (R194). -/
def State.emit (s : State) (f : Frame) : State := { s with link := { s.link with tx := s.link.tx ++ [f] } }

/-- The reply of a request: its tag and code unchanged (R192). -/
def replyFrame (tag : Byte) (code : Nat) (st : Status) (p : List Field) : Frame :=
  { ftype := .reply, tag, code, status := st, payload := p }

/-- Form a reply with no other effect. -/
def State.reply (s : State) (tag : Byte) (code : Nat) (st : Status) (p : List Field := []) : State :=
  s.emit (replyFrame tag code st p)

/-- The state `t` that an event has made of `s`, with the event's reply formed before every other frame of the event (R48,
R194). -/
def State.answer (s : State) (tag : Byte) (code : Nat) (st : Status) (p : List Field) (t : State) : State :=
  { t with link := { t.link with tx := s.link.tx ++ replyFrame tag code st p :: t.link.tx.drop s.link.tx.length } }

/-- Form a REPORT frame: tag and status 0 (TABLE 10-1). -/
def State.report (s : State) (code : Nat) (p : List Field) : State :=
  s.emit { ftype := .report, tag := 0, code, status := .ok, payload := p }

/-- The bytes of a frame: header, payload, CRC trailer most significant byte first (TABLE 10-7, R191). -/
def Frame.bytes (f : Frame) : List Byte :=
  let p := fieldBytes f.payload
  let body := beBytes 1 f.ftype.code ++ [f.tag] ++ beBytes 1 f.code ++ beBytes 1 f.status.code ++ beBytes 2 p.length ++ p
  body ++ beBytes 4 (crc32 body).toNat

/-- How a request is taken: dropped while no request is taken (R191 (5)); answered BAD_FIELD where its payload is malformed
(R192); otherwise handed to its owner. -/
def State.request {α : Type} (s : State) (tag : Byte) (code : Nat) (r : Req α) (owner : α → State) : Out :=
  if s.taking then
    match r with
    | .fields a => .next (owner a)
    | .malformed => .next (s.reply tag code .badField)
  else .next s

/-- How an event of the part's own is taken: it has no effect while the part is not powered or its start-up has not ended. -/
def State.event (s : State) (effect : State) : Out := if s.taking then .next effect else .next s

/-! ### Request codes (TABLE 10-2) -/

namespace Code
def itemOpen : Nat := 0x01
def segDeclare : Nat := 0x02
def segData : Nat := 0x03
def itemCommit : Nat := 0x04
def itemAbort : Nat := 0x05
def itemRead : Nat := 0x06
def itemSegments : Nat := 0x07
def segRead : Nat := 0x08
def segVerify : Nat := 0x09
def clockRead : Nat := 0x0A
def clockSet : Nat := 0x0B
def clockAdjust : Nat := 0x0C
def classSet : Nat := 0x0D
def classClear : Nat := 0x0E
def classRead : Nat := 0x0F
def domainSet : Nat := 0x10
def domainRead : Nat := 0x11
def policyWrite : Nat := 0x12
def policyRead : Nat := 0x13
def archiveFlags : Nat := 0x14
def eventPost : Nat := 0x15
def eventRead : Nat := 0x16
def sweepStatus : Nat := 0x17
def matterOpen : Nat := 0x18
def matterAmend : Nat := 0x19
def matterClose : Nat := 0x1A
def matterRead : Nat := 0x1B
def custodianSet : Nat := 0x1C
def custodianFind : Nat := 0x1D
def custodianRead : Nat := 0x1E
def dispoList : Nat := 0x1F
def dispoRelease : Nat := 0x20
def dispoStatus : Nat := 0x21
def channelStatus : Nat := 0x22
def channelProbe : Nat := 0x23
def auditRead : Nat := 0x24
def auditHead : Nat := 0x25
def identify : Nat := 0x26
def settingSet : Nat := 0x27
def settingGet : Nat := 0x28
def complianceEnter : Nat := 0x29
def complianceLeave : Nat := 0x2A
def noticeClear : Nat := 0x2B
def reset : Nat := 0x2C
/-- SEGMENT_READY (TABLE 10-8) -/
def segmentReady : Nat := 0x01
/-- SEGMENT_SEND (TABLE 10-8) -/
def segmentSend : Nat := 0x02
/-- SEGMENT_FAILED (TABLE 10-8) -/
def segmentFailed : Nat := 0x03
/-- COMMITTED (TABLE 10-8) -/
def committed : Nat := 0x04
/-- CONTEXT_ENDED (TABLE 10-8) -/
def contextEnded : Nat := 0x05
end Code

end Sys2Proof.Machine
end

