-- ==== Sys2Proof/WellFormed.lean ====
section
/-! DEFINITION. Well-formed commands: every field of a request fits the width its layout gives it (sections 10.6 and R204), a payload
fits a frame (R191), and an event names what the part has. The ranges that an owner's rule checks are not checked here. -/

namespace Sys2Proof

/-- A value fits a field of `w` bytes. -/
def fits (w n : Nat) : Bool := decide (n < 256 ^ w)

/-- A context reference fits its 3 bytes. -/
def CtxRef.wf (r : CtxRef) : Bool := fits 1 r.ctx && fits 2 r.gen

/-- TABLE 10-9, with a party list that fits a payload. -/
def ItemOpen.wf (q : ItemOpen) : Bool :=
  fits 1 q.domain && fits 2 q.segCount && fits 8 q.sent && decide (26 + 8 * q.parties.length ≤ Config.payloadMax)

def SegDeclare.wf (q : SegDeclare) : Bool := q.ref.wf && fits 2 q.slot && fits 4 q.length

/-- TABLE 10-10, with data bytes that fit a payload. -/
def SegData.wf (q : SegData) : Bool :=
  q.ref.wf && fits 2 q.slot && fits 4 q.offset && decide (11 + q.data.length ≤ Config.payloadMax)

def ItemSegments.wf (q : ItemSegments) : Bool := fits 3 q.item && fits 2 q.first && fits 4 q.count

def SegReadReq.wf (q : SegReadReq) : Bool := fits 3 q.item && fits 2 q.slot && fits 4 q.offset && fits 2 q.count

def SegVerifyReq.wf (q : SegVerifyReq) : Bool := fits 3 q.item && fits 2 q.slot

def ClassDef.wf (d : ClassDef) : Bool := fits 1 d.py && fits 1 d.pm && fits 2 d.pd && fits 2 d.fd

def ClassSet.wf (q : ClassSet) : Bool := fits 1 q.cls && q.defn.wf

def DomainSet.wf (q : DomainSet) : Bool :=
  fits 1 q.domain && fits 1 q.group && fits 1 q.fallback && fits 2 q.start && fits 4 q.backdate

def PolicyTest.wf : PolicyTest → Bool
  | .always => true
  | .domain d => fits 4 d
  | .tag n => fits 4 n
  | .partiesAtLeast n => fits 4 n
  | .segmentsAtLeast n => fits 4 n
  | .sizeAtLeast k => fits 4 k
  | .hasEventKey => true
  | .itemFlag f => fits 4 f
  | .archiveFlag f => fits 4 f
  | .anyCustodian => true

def PolicyAction.wf : PolicyAction → Bool
  | .cls c => fits 4 c
  | .flags _ _ => true
  | .goto e => fits 4 e
  | .call e => fits 4 e
  | .ret => true
  | .stop => true

def PolicyEntry.wf : PolicyEntry → Bool
  | .unused => true
  | .used t _ a => t.wf && a.wf

def PolicyWrite.wf (q : PolicyWrite) : Bool := fits 2 q.entry && q.content.wf

def EventPost.wf (q : EventPost) : Bool := fits 4 q.day

def EventRead.wf (q : EventRead) : Bool := fits 4 q.first && fits 4 q.count

def MatterFields.wf (f : MatterFields) : Bool :=
  match f.range with
  | none => true
  | some (a, b) => fits 4 a && fits 4 b

def MatterSet.wf (q : MatterSet) : Bool := fits 1 q.matter && q.body.wf

/-- The payload of a request is malformed, or its fields fit. -/
def Req.wf {α : Type} (p : α → Bool) : Req α → Bool
  | .fields a => p a
  | .malformed => true

/-- A command is well formed. -/
def Instr.wf : Instr → Bool
  | .itemOpen _ r => r.wf ItemOpen.wf
  | .segDeclare _ r => r.wf SegDeclare.wf
  | .segData _ r => r.wf SegData.wf
  | .itemCommit _ r => r.wf CtxRef.wf
  | .itemAbort _ r => r.wf CtxRef.wf
  | .itemRead _ r => r.wf (fits 3)
  | .itemSegments _ r => r.wf ItemSegments.wf
  | .segRead _ r => r.wf SegReadReq.wf
  | .segVerify _ r => r.wf SegVerifyReq.wf
  | .clockRead _ _ => true
  | .clockSet _ r => r.wf (fits 8)
  | .clockAdjust _ r => r.wf (fits 8)
  | .classSet _ r => r.wf ClassSet.wf
  | .classClear _ r => r.wf (fits 1)
  | .classRead _ r => r.wf (fits 1)
  | .domainSet _ r => r.wf DomainSet.wf
  | .domainRead _ r => r.wf (fits 1)
  | .policyWrite _ r => r.wf PolicyWrite.wf
  | .policyRead _ r => r.wf (fits 2)
  | .archiveFlags _ _ => true
  | .eventPost _ r => r.wf EventPost.wf
  | .eventRead _ r => r.wf EventRead.wf
  | .sweepStatus _ _ => true
  | .matterOpen _ r => r.wf MatterSet.wf
  | .matterAmend _ r => r.wf MatterSet.wf
  | .matterClose _ r => r.wf (fits 1)
  | .matterRead _ r => r.wf (fits 1)
  | .custodianSet _ _ => true
  | .custodianFind _ _ => true
  | .custodianRead _ r => r.wf (fits 4)
  | .dispoList _ r => r.wf (fun q => fits 4 q.first && fits 4 q.count)
  | .dispoRelease _ r => r.wf (fun q => fits 3 q.first && fits 4 q.n)
  | .dispoStatus _ _ => true
  | .channelStatus _ r => r.wf (fits 1)
  | .channelProbe _ r => r.wf (fits 1)
  | .auditRead _ r => r.wf (fun q => fits 6 q.first && fits 4 q.count)
  | .auditHead _ _ => true
  | .identify _ _ => true
  | .settingSet _ r => r.wf (fun q => fits 1 q.setting && fits 4 q.value)
  | .settingGet _ r => r.wf (fits 1)
  | .complianceEnter _ _ => true
  | .complianceLeave _ _ => true
  | .noticeClear _ _ => true
  | .reset _ _ => true
  | .unknownRequest _ code => decide (code.toNat = 0 ∨ 0x2C < code.toNat)
  | .frameDropped _ => true
  | .powerOn => true
  | .powerLoss => true
  | .timeBaseSecond => true
  | .holdEnd => true
  | .dayRollover => true
  | .dayRolloverUnpowered => true
  | .timeBaseLoss => true
  | .contextTimeout ctx => decide (ctx < Config.contexts)
  | .deferredCommit => true
  | .holdSweepStep => true
  | .classSweepStep => true
  | .eventSweepStep => true
  | .sweepCompletion => true
  | .dueProcessing => true
  | .autoRelease => true
  | .disposalEvent => true
  | .programComplete _ _ => true
  | .readComplete _ result => match result with | some bs => decide (bs.length = Config.pageBytes) | none => true
  | .eraseComplete _ _ => true
  | .suspendComplete _ _ => true
  | .resumeComplete _ _ => true
  | .identifyComplete _ _ => true
  | .operationTimeout _ => true
  | .probeStart _ => true
  | .channelRestore _ => true
  | .owedMediaRecord => true
  | .startUpRecord => true
  | .auditPageWait => true
  | .verifyReadQueued _ => true
  | .linkReset => true

end Sys2Proof
end

