-- ==== Sys2Proof/Decode.lean ====
section
/-! DEFINITION. How bytes become commands: the receiver of the control link, from a frame's bytes to a command (R191, R192, TABLE 10-7,
TABLE 10-9, TABLE 10-10, R204), and the sender's side of it. No row of the operation table gives bits, so a table word spells
no command. -/

namespace Sys2Proof

/-- The command a word of the operation table spells: none, since the table gives no row any bits. -/
def decodeTableWord (_nbits _w : Nat) : Option Instr := none

namespace Machine

/-! ### Fields of a payload -/

/-- The values of a payload's fields of the given widths: none unless the payload is exactly as long as they are. -/
def splitFields : List Nat → List Byte → Option (List Nat)
  | [], [] => some []
  | [], _ :: _ => none
  | w :: ws, bs => if bs.length < w then none else (splitFields ws (bs.drop w)).map (fun vs => ofBytes (bs.take w) :: vs)

/-- The request whose payload has fields of the given widths, read by `f`; any other payload is malformed (R192). -/
def layout {α : Type} (ws : List Nat) (f : List Nat → Option α) (p : List Byte) : Req α :=
  match (splitFields ws p).bind f with
  | some a => .fields a
  | none => .malformed

/-- An indication of yes or no: one byte, 0x00 or 0x01 (R204). -/
def yesNo : Nat → Option Bool
  | 0 => some false
  | 1 => some true
  | _ => none

/-- The presence of an optional field whose bytes hold `v`: 0x00 bytes where it is absent (section 10.6). -/
def present {α : Type} (p : Nat) (zero : Bool) (v : α) : Option (Option α) :=
  match p with
  | 0 => if zero then some none else none
  | 1 => some (some v)
  | _ => none

/-- A payload with no fields. -/
def emptyLayout (p : List Byte) : Req Unit := layout [] (fun _ => some ()) p

/-- A payload of one number of `w` bytes. -/
def numLayout (w : Nat) (p : List Byte) : Req Nat := layout [w] (fun vs => vs.head?) p

/-! ### Layouts of the requests (TABLE 10-9, TABLE 10-10, R204) -/

/-- TABLE 10-9. -/
def itemOpenOf (p : List Byte) : Req ItemOpen :=
  let parties := p.drop 26
  layout ([1, 1, 2, 2, 8, 4, 8] ++ List.replicate (parties.length / 8) 8) (fun vs =>
    match vs with
    | d :: k :: n :: np :: sent :: tags :: key :: ps =>
      if np = ps.length then
        (present k (decide (key = 0)) (BitVec.ofNat 64 key)).map (fun e =>
          { domain := d, segCount := n, sent := sent, tags := BitVec.ofNat 32 tags, event := e
            parties := ps.map (BitVec.ofNat 64) })
      else none
    | _ => none) p

def ctxRefOf (p : List Byte) : Req CtxRef :=
  layout [1, 2] (fun vs => match vs with | [c, g] => some { ctx := c, gen := g } | _ => none) p

def segDeclareOf (p : List Byte) : Req SegDeclare :=
  layout [1, 2, 2, 32, 4] (fun vs =>
    match vs with
    | [c, g, n, d, l] => some { ref := { ctx := c, gen := g }, slot := n, digest := BitVec.ofNat 256 d, length := l }
    | _ => none) p

/-- TABLE 10-10: the payload length is 11 plus the byte count. -/
def segDataOf (p : List Byte) : Req SegData :=
  layout [1, 2, 2, 4, 2] (fun vs =>
    match vs with
    | [c, g, n, o, k] =>
      if (p.drop 11).length = k then some { ref := { ctx := c, gen := g }, slot := n, offset := o, data := p.drop 11 } else none
    | _ => none) (p.take 11)

def itemSegmentsOf (p : List Byte) : Req ItemSegments :=
  layout [3, 2, 4] (fun vs => match vs with | [i, f, n] => some { item := i, first := f, count := n } | _ => none) p

def segReadOf (p : List Byte) : Req SegReadReq :=
  layout [3, 2, 4, 2] (fun vs =>
    match vs with
    | [i, n, o, k] => some { item := i, slot := n, offset := o, count := k }
    | _ => none) p

def segVerifyOf (p : List Byte) : Req SegVerifyReq :=
  layout [3, 2] (fun vs => match vs with | [i, n] => some { item := i, slot := n } | _ => none) p

/-- The anchor kinds in the order of R74. -/
def anchorOfCode : Nat → Option AnchorKind
  | 0 => some .ingest
  | 1 => some .sent
  | 2 => some .event
  | _ => none

def classSetOf (p : List Byte) : Req ClassSet :=
  layout [1, 1, 1, 1, 2, 2, 1] (fun vs =>
    match vs with
    | [c, a, py, pm, pd, fd, pf] =>
      (anchorOfCode a).bind (fun a => (yesNo pf).map (fun f =>
        { cls := c, defn := { anchor := a, py := py, pm := pm, pd := pd, fd := fd, permanent := f } }))
    | _ => none) p

/-- DOMAIN_SET (R83): domain, state, dedup group, fallback class, start entry, backdate limit. The dedup group takes 1 byte, and the
fallback class stands without a presence byte also where the state is UNUSED, which ignores it: DESIGN CHOICE, log entry 13. -/
def domainSetOf (p : List Byte) : Req DomainSet :=
  layout [1, 1, 1, 1, 2, 4] (fun vs =>
    match vs with
    | [d, st, g, f, e, b] =>
      (yesNo st).map (fun a => { domain := d, active := a, group := g, fallback := f, start := e, backdate := b })
    | _ => none) p

/-- A policy test: its number in TABLE 4-2 with its operand, 0 where it has none. -/
def policyTestOf (k v : Nat) : Option PolicyTest :=
  match k with
  | 0 => if v = 0 then some .always else none
  | 1 => some (.domain v)
  | 2 => some (.tag v)
  | 3 => some (.partiesAtLeast v)
  | 4 => some (.segmentsAtLeast v)
  | 5 => some (.sizeAtLeast v)
  | 6 => if v = 0 then some .hasEventKey else none
  | 7 => some (.itemFlag v)
  | 8 => some (.archiveFlag v)
  | 9 => if v = 0 then some .anyCustodian else none
  | _ => none

/-- A policy action: its number in TABLE 4-3 with its operand, 0 where it has none. -/
def policyActionOf (k v : Nat) : Option PolicyAction :=
  match k with
  | 0 => some (.cls v)
  | 1 => if v < 65536 then some (.flags (BitVec.ofNat 8 (v / 256)) (BitVec.ofNat 8 v)) else none
  | 2 => some (.goto v)
  | 3 => some (.call v)
  | 4 => if v = 0 then some .ret else none
  | 5 => if v = 0 then some .stop else none
  | _ => none

/-- The two layouts of a POLICY_WRITE: an UNUSED entry, or a USED one with test, sense and action (R86). -/
def policyWriteOf (p : List Byte) : Req PolicyWrite :=
  if p.length = 3 then
    layout [2, 1] (fun vs => match vs with | [e, 0] => some { entry := e, content := .unused } | _ => none) p
  else
    layout [2, 1, 1, 4, 1, 1, 4] (fun vs =>
      match vs with
      | [e, 1, t, tv, w, a, av] =>
        (policyTestOf t tv).bind (fun t => (yesNo w).bind (fun w => (policyActionOf a av).map (fun a =>
          { entry := e, content := .used t (!w) a })))
      | _ => none) p

/-- The set and the clear mask of ARCHIVE_FLAGS; flag f is the bit of value 2^f (R85, log entry 39). -/
def flagMasksOf (p : List Byte) : Req FlagMasks :=
  layout [1, 1] (fun vs => match vs with | [a, b] => some { set := BitVec.ofNat 8 a, clear := BitVec.ofNat 8 b } | _ => none) p

def eventPostOf (p : List Byte) : Req EventPost :=
  layout [8, 4] (fun vs => match vs with | [k, d] => some { key := BitVec.ofNat 64 k, day := d } | _ => none) p

def eventReadOf (p : List Byte) : Req EventRead :=
  layout [8, 4, 4] (fun vs =>
    match vs with
    | [k, f, n] => some { key := BitVec.ofNat 64 k, first := f, count := n }
    | _ => none) p

def matterSetOf (p : List Byte) : Req MatterSet :=
  layout [1, 2, 1, 4, 4, 1] (fun vs =>
    match vs with
    | [m, ds, k, a, b, f] =>
      (present k (decide (a = 0 ∧ b = 0)) (a, b)).bind (fun r => (yesNo f).map (fun f =>
        { matter := m, body := { domains := BitVec.ofNat 16 ds, range := r, allParties := f } }))
    | _ => none) p

def custodianSetOf (p : List Byte) : Req CustodianSet :=
  layout [8, 8] (fun vs => match vs with | [k, m] => some { key := BitVec.ofNat 64 k, mask := BitVec.ofNat 64 m } | _ => none) p

def keyOf (p : List Byte) : Req Key :=
  layout [8] (fun vs => match vs with | [k] => some (BitVec.ofNat 64 k) | _ => none) p

def windowOf (w : Nat) (p : List Byte) : Req Window :=
  layout [w, 4] (fun vs => match vs with | [f, n] => some { first := f, count := n } | _ => none) p

def dispoReleaseOf (p : List Byte) : Req DispoRelease :=
  layout [3, 4] (fun vs => match vs with | [f, n] => some { first := f, n := n } | _ => none) p

def settingSetOf (p : List Byte) : Req SettingSet :=
  layout [1, 4] (fun vs => match vs with | [n, v] => some { setting := n, value := v } | _ => none) p

def noticeClearOf (p : List Byte) : Req (BitVec 16) :=
  layout [2] (fun vs => match vs with | [m] => some (BitVec.ofNat 16 m) | _ => none) p

/-! ### From a frame to a command -/

/-- The command of a request frame: its tag, its code and its payload (R192, TABLE 10-2). -/
def commandOf (tag code : Byte) (p : List Byte) : Instr :=
  match code.toNat with
  | 0x01 => .itemOpen tag (itemOpenOf p)
  | 0x02 => .segDeclare tag (segDeclareOf p)
  | 0x03 => .segData tag (segDataOf p)
  | 0x04 => .itemCommit tag (ctxRefOf p)
  | 0x05 => .itemAbort tag (ctxRefOf p)
  | 0x06 => .itemRead tag (numLayout 3 p)
  | 0x07 => .itemSegments tag (itemSegmentsOf p)
  | 0x08 => .segRead tag (segReadOf p)
  | 0x09 => .segVerify tag (segVerifyOf p)
  | 0x0A => .clockRead tag (emptyLayout p)
  | 0x0B => .clockSet tag (numLayout 8 p)
  | 0x0C => .clockAdjust tag (numLayout 8 p)
  | 0x0D => .classSet tag (classSetOf p)
  | 0x0E => .classClear tag (numLayout 1 p)
  | 0x0F => .classRead tag (numLayout 1 p)
  | 0x10 => .domainSet tag (domainSetOf p)
  | 0x11 => .domainRead tag (numLayout 1 p)
  | 0x12 => .policyWrite tag (policyWriteOf p)
  | 0x13 => .policyRead tag (numLayout 2 p)
  | 0x14 => .archiveFlags tag (flagMasksOf p)
  | 0x15 => .eventPost tag (eventPostOf p)
  | 0x16 => .eventRead tag (eventReadOf p)
  | 0x17 => .sweepStatus tag (emptyLayout p)
  | 0x18 => .matterOpen tag (matterSetOf p)
  | 0x19 => .matterAmend tag (matterSetOf p)
  | 0x1A => .matterClose tag (numLayout 1 p)
  | 0x1B => .matterRead tag (numLayout 1 p)
  | 0x1C => .custodianSet tag (custodianSetOf p)
  | 0x1D => .custodianFind tag (keyOf p)
  | 0x1E => .custodianRead tag (numLayout 4 p)
  | 0x1F => .dispoList tag (windowOf 4 p)
  | 0x20 => .dispoRelease tag (dispoReleaseOf p)
  | 0x21 => .dispoStatus tag (emptyLayout p)
  | 0x22 => .channelStatus tag (numLayout 1 p)
  | 0x23 => .channelProbe tag (numLayout 1 p)
  | 0x24 => .auditRead tag (windowOf 6 p)
  | 0x25 => .auditHead tag (emptyLayout p)
  | 0x26 => .identify tag (emptyLayout p)
  | 0x27 => .settingSet tag (settingSetOf p)
  | 0x28 => .settingGet tag (numLayout 1 p)
  | 0x29 => .complianceEnter tag (emptyLayout p)
  | 0x2A => .complianceLeave tag (emptyLayout p)
  | 0x2B => .noticeClear tag (noticeClearOf p)
  | 0x2C => .reset tag (emptyLayout p)
  | _ => .unknownRequest tag code

/-- The receiver of the control link (R191): a frame is dropped where its byte count is not 6 plus the header's payload length
plus 4, the payload length exceeds 4,160, the CRC trailer disagrees, or its type is not REQUEST (0x01). A frame that arrives
while no request is taken is dropped by the meaning of its command (R191 (5)). -/
def receive (bytes : List Byte) : Instr :=
  match bytes with
  | kind :: tag :: code :: _ :: l1 :: l0 :: rest =>
    let n := ofBytes [l1, l0]
    let body := bytes.take (6 + n)
    if rest.length = n + 4 ∧ n ≤ Config.payloadMax ∧ ofBytes (rest.drop n) = (crc32 body).toNat ∧ kind = 0x01 then
      commandOf tag code (rest.take n)
    else .frameDropped bytes
  | _ => .frameDropped bytes

/-! ### From a command to a frame -/

/-- The fields of a request's payload, the sender's side of its layout; none for an event and for a malformed payload. -/
def requestFields : Instr → Option (Byte × Nat × List Field)
  | .itemOpen t (.fields q) => some (t, Code.itemOpen,
      [Fld.u8 q.domain, Fld.yes q.event.isSome, Fld.u16 q.segCount, Fld.u16 q.parties.length, Fld.u64 q.sent, Fld.u32 q.tags.toNat,
        Fld.u64 ((q.event.map (·.toNat)).getD 0)] ++ q.parties.map (fun k => Fld.u64 k.toNat))
  | .segDeclare t (.fields q) => some (t, Code.segDeclare,
      [Fld.u8 q.ref.ctx, Fld.u16 q.ref.gen, Fld.u16 q.slot, Fld.digest q.digest, Fld.u32 q.length])
  | .segData t (.fields q) => some (t, Code.segData,
      [Fld.u8 q.ref.ctx, Fld.u16 q.ref.gen, Fld.u16 q.slot, Fld.u32 q.offset, Fld.u16 q.data.length] ++ Fld.bytes q.data)
  | .itemCommit t (.fields q) => some (t, Code.itemCommit, [Fld.u8 q.ctx, Fld.u16 q.gen])
  | .itemAbort t (.fields q) => some (t, Code.itemAbort, [Fld.u8 q.ctx, Fld.u16 q.gen])
  | .itemRead t (.fields n) => some (t, Code.itemRead, [Fld.u24 n])
  | .itemSegments t (.fields q) => some (t, Code.itemSegments, [Fld.u24 q.item, Fld.u16 q.first, Fld.u32 q.count])
  | .segRead t (.fields q) => some (t, Code.segRead, [Fld.u24 q.item, Fld.u16 q.slot, Fld.u32 q.offset, Fld.u16 q.count])
  | .segVerify t (.fields q) => some (t, Code.segVerify, [Fld.u24 q.item, Fld.u16 q.slot])
  | .clockRead t (.fields _) => some (t, Code.clockRead, [])
  | .clockSet t (.fields n) => some (t, Code.clockSet, [Fld.u64 n])
  | .clockAdjust t (.fields n) => some (t, Code.clockAdjust, [Fld.u64 n])
  | .classSet t (.fields q) => some (t, Code.classSet, Fld.u8 q.cls :: Fld.classDef q.defn)
  | .classClear t (.fields n) => some (t, Code.classClear, [Fld.u8 n])
  | .classRead t (.fields n) => some (t, Code.classRead, [Fld.u8 n])
  | .domainSet t (.fields q) => some (t, Code.domainSet,
      [Fld.u8 q.domain, Fld.yes q.active, Fld.u8 q.group, Fld.u8 q.fallback, Fld.u16 q.start, Fld.u32 q.backdate])
  | .domainRead t (.fields n) => some (t, Code.domainRead, [Fld.u8 n])
  | .policyWrite t (.fields q) => some (t, Code.policyWrite, Fld.u16 q.entry :: Fld.policyEntry q.content)
  | .policyRead t (.fields n) => some (t, Code.policyRead, [Fld.u16 n])
  | .archiveFlags t (.fields q) => some (t, Code.archiveFlags, [Fld.u8 q.set.toNat, Fld.u8 q.clear.toNat])
  | .eventPost t (.fields q) => some (t, Code.eventPost, [Fld.u64 q.key.toNat, Fld.u32 q.day])
  | .eventRead t (.fields q) => some (t, Code.eventRead, [Fld.u64 q.key.toNat, Fld.u32 q.first, Fld.u32 q.count])
  | .sweepStatus t (.fields _) => some (t, Code.sweepStatus, [])
  | .matterOpen t (.fields q) => some (t, Code.matterOpen, Fld.u8 q.matter :: Fld.matterFields q.body)
  | .matterAmend t (.fields q) => some (t, Code.matterAmend, Fld.u8 q.matter :: Fld.matterFields q.body)
  | .matterClose t (.fields n) => some (t, Code.matterClose, [Fld.u8 n])
  | .matterRead t (.fields n) => some (t, Code.matterRead, [Fld.u8 n])
  | .custodianSet t (.fields q) => some (t, Code.custodianSet, [Fld.u64 q.key.toNat, Fld.u64 q.mask.toNat])
  | .custodianFind t (.fields k) => some (t, Code.custodianFind, [Fld.u64 k.toNat])
  | .custodianRead t (.fields n) => some (t, Code.custodianRead, [Fld.u32 n])
  | .dispoList t (.fields q) => some (t, Code.dispoList, [Fld.u32 q.first, Fld.u32 q.count])
  | .dispoRelease t (.fields q) => some (t, Code.dispoRelease, [Fld.u24 q.first, Fld.u32 q.n])
  | .dispoStatus t (.fields _) => some (t, Code.dispoStatus, [])
  | .channelStatus t (.fields n) => some (t, Code.channelStatus, [Fld.u8 n])
  | .channelProbe t (.fields n) => some (t, Code.channelProbe, [Fld.u8 n])
  | .auditRead t (.fields q) => some (t, Code.auditRead, [Fld.u48 q.first, Fld.u32 q.count])
  | .auditHead t (.fields _) => some (t, Code.auditHead, [])
  | .identify t (.fields _) => some (t, Code.identify, [])
  | .settingSet t (.fields q) => some (t, Code.settingSet, [Fld.u8 q.setting, Fld.u32 q.value])
  | .settingGet t (.fields n) => some (t, Code.settingGet, [Fld.u8 n])
  | .complianceEnter t (.fields _) => some (t, Code.complianceEnter, [])
  | .complianceLeave t (.fields _) => some (t, Code.complianceLeave, [])
  | .noticeClear t (.fields m) => some (t, Code.noticeClear, [Fld.u16 m.toNat])
  | .reset t (.fields _) => some (t, Code.reset, [])
  | .unknownRequest t c => some (t, c.toNat, [])
  | _ => none

/-- The bytes of a request frame: header with type 0x01 and status 0x00, payload, CRC trailer (TABLE 10-7, R191). -/
def requestBytes (tag : Byte) (code : Nat) (fs : List Field) : List Byte :=
  let p := fieldBytes fs
  let body := 0x01 :: tag :: BitVec.ofNat 8 code :: 0x00 :: (beBytes 2 p.length ++ p)
  body ++ beBytes 4 (crc32 body).toNat

/-- The frame a host sends for a request: none for an event and for a malformed payload. -/
def encode (i : Instr) : Option (List Byte) := (requestFields i).map (fun r => requestBytes r.1 r.2.1 r.2.2)

end Machine
end Sys2Proof
end

