-- ==== Sys2Proof/Machine/Calendar.lean ====
section
/-! DEFINITION. The calendar arithmetic of the Retention Clock: dates and day numbers (R18, R19), the sent-day clamp (R20), the class
expiry (R21, R22), the item expiry (R92) and the merge (R93). -/

namespace Sys2Proof.Machine

/-- A year is a leap year when it is divisible by 4, except 2100 (section 1.7). -/
def leap (y : Nat) : Bool := y % 4 == 0 && y != 2100

/-- The length of a month (TABLE 1-4). -/
def monthLen (y m : Nat) : Nat :=
  match m with
  | 2 => if leap y then 29 else 28
  | 4 => 30
  | 6 => 30
  | 9 => 30
  | 11 => 30
  | _ => 31

/-- The days before a month (TABLE 1-4). -/
def daysBefore (y m : Nat) : Nat :=
  match m with
  | 0 => 0
  | 1 => 0
  | 2 => 31
  | m + 3 =>
    [59, 90, 120, 151, 181, 212, 243, 273, 304, 334].getD m 334 + (if leap y then 1 else 0)

/-- The year start of a year (R18 (1)). -/
def yearStart (y : Nat) : Nat := 365 * (y - 2000) + (y - 1997) / 4 - (if 2101 ≤ y then 1 else 0)

/-- The day number of a date (R18). -/
def dayNumber (y m d : Nat) : Nat := yearStart y + daysBefore y m + (d - 1)

/-- The greatest of the years 2000 to 2000 + k whose year start is no later than `n` (R19). -/
def yearFrom (n : Nat) : Nat → Nat
  | 0 => 2000
  | k + 1 => if yearStart (2000 + (k + 1)) ≤ n then 2000 + (k + 1) else yearFrom n k

/-- The greatest of the months 1 to 1 + k whose days-before value is no more than `r` (R19). -/
def monthFrom (y r : Nat) : Nat → Nat
  | 0 => 1
  | k + 1 => if daysBefore y (1 + (k + 1)) ≤ r then 1 + (k + 1) else monthFrom y r k

/-- The date of a day number: year, month, day of month (R19). -/
def dateOf (n : Nat) : Nat × Nat × Nat :=
  let y := yearFrom n 199
  let r := n - yearStart y
  let m := monthFrom y r 11
  (y, m, r - daysBefore y m + 1)

/-- The sent-day clamp: the sent day, and whether SENT_CLAMPED is reported (R20). -/
def sentClamp (sent commitDay backdate : Nat) : Nat × Bool :=
  let raw := min (sent / Config.daySeconds) Config.dayMax
  let day := max (commitDay - backdate) (min raw commitDay)
  (day, day != raw)

/-- The anchor of a class (R21): no anchor is examined for a permanent class. -/
inductive Anchor where
  | never
  | pending
  /-- the anchor day, and whether NO_EVENT_KEY is reported -/
  | day (a : Nat) (noKey : Bool)
deriving DecidableEq, Repr

/-- The two stages of R21. `key` is the item's event key entry: none where the item carries no key, and within it the event
day while POSTED. -/
def anchorOf (c : ClassDef) (commitDay sentDay : Nat) (key : Option (Option Nat)) : Anchor :=
  if c.permanent then .never
  else
    match c.anchor with
    | .ingest => .day commitDay false
    | .sent => .day sentDay false
    | .event =>
      match key with
      | none => .day commitDay true
      | some none => .pending
      | some (some d) => .day d false

/-- The stages of R22 from a known anchor day: calendar add with the month-end clamp, days, floor, result. -/
def periodExpiry (c : ClassDef) (commitDay anchor : Nat) : Expiry :=
  let date := dateOf anchor
  let months := date.2.1 - 1 + c.pm
  let y2 := date.1 + c.py + months / 12
  let m2 := months % 12 + 1
  let d2 := min date.2.2 (monthLen y2 m2)
  if 2199 < y2 then .never
  else
    let day := dayNumber y2 m2 d2 + c.pd
    let floor := commitDay + c.fd
    if Config.dayMax < day then .never
    else if Config.dayMax < floor then .never
    else .day (max day floor)

/-- The class expiry of an item, and whether NO_EVENT_KEY is reported (R21, R22). -/
def classExpiry (c : ClassDef) (commitDay sentDay : Nat) (key : Option (Option Nat)) : Expiry × Bool :=
  match anchorOf c commitDay sentDay key with
  | .never => (.never, false)
  | .pending => (.pending, false)
  | .day a noKey => (periodExpiry c commitDay a, noKey)

/-- The combination of two class expiries: NEVER governs, then PENDING, then the greater day (R92). -/
def Expiry.combine : Expiry → Expiry → Expiry
  | .never, _ => .never
  | _, .never => .never
  | .pending, _ => .pending
  | _, .pending => .pending
  | .day a, .day b => .day (max a b)

/-- The item expiry over the class expiries of its set, and whether any reports NO_EVENT_KEY (R92). An empty list, which no
class set is, gives day 0. -/
def combineAll : List (Expiry × Bool) → Expiry × Bool
  | [] => (.day 0, false)
  | e :: es => es.foldl (fun a b => (a.1.combine b.1, a.2 || b.2)) e

/-- The merge of an item's present expiry with a recomputed one (TABLE 4-4, R93). -/
def Expiry.merge : Expiry → Expiry → Expiry
  | .never, _ => .never
  | _, .never => .never
  | .pending, r => r
  | .day a, .pending => .day a
  | .day a, .day b => .day (max a b)

/-- The expiry is later than a day: true of NEVER and of any greater day (R95). PENDING is no day. -/
def Expiry.laterThan (e : Expiry) (today : Nat) : Bool :=
  match e with
  | .never => true
  | .day d => decide (today < d)
  | .pending => false

/-- An item's expiry recomputed over its class set, with the definitions and the event key entry given (R92). A class that is
UNDEFINED yields nothing. -/
def itemExpiry (p : Policy) (classes : List Nat) (commitDay sentDay : Nat) (key : Option (Option Nat)) : Expiry × Bool :=
  combineAll (classes.filterMap (fun c => (p.cls c).state.defn.map (fun d => classExpiry d commitDay sentDay key)))

/-- The event key entry as the class expiry reads it (R21): its day while POSTED. -/
def Index.keyState (x : Index) (k : Option Key) : Option (Option Nat) :=
  k.map (fun k => ((x.event k).bind (·.posted)))

end Sys2Proof.Machine
end

