-- ==== Sys2Proof/Machine/Media.lean ====
section
/-! DEFINITION. Chapter 8: zones, placement, staging, the work queues, the channel arbiter and erase suspension; and the drain of
chapter 9 that feeds the AUDIT queues. They act on the media and the audit state together. -/

namespace Sys2Proof.Machine

/-! ### Zones (sections 8.2, 8.3) -/

/-- A zone left FULL with a live count of 0 becomes RECLAIMING and joins the tail of the RECLAIM queue (R158). -/
def Channel.settleZone (c : Channel) (z : Nat) : Channel :=
  if (c.zone z).state = .full ∧ (c.zone z).live = 0 then
    { c.setZone z { c.zone z with state := .reclaiming } with reclaimQ := c.reclaimQ ++ [z] }
  else c

/-- The channel's INGEST_OPEN zone, if any, becomes FULL (R159 (2), R171 (2)). -/
def Channel.closeIngest (c : Channel) : Channel :=
  match c.zoneIn .ingestOpen with
  | some z => (c.setZone z { c.zone z with state := .full }).settleZone z
  | none => c

/-- The channel's AUDIT_OPEN zone, if any, becomes AUDIT_CLOSED (R163, R171 (2)). -/
def Channel.closeAudit (c : Channel) : Channel :=
  match c.zoneIn .auditOpen with
  | some z => c.setZone z { c.zone z with state := .auditClosed }
  | none => c

/-- The pages of a location become dead: the zone's live count falls by their number (R158). -/
def Media.deadPages (m : Media) (l : Loc) : Media :=
  let c := m.get l.chan
  let z := c.zone l.zone
  m.set l.chan ((c.setZone l.zone { z with live := z.live - l.count }).settleZone l.zone)

/-- The channel's uploads with a new one of `p` pages at a placement. -/
def Channel.addUpload (c : Channel) (ref : EntryRef) (z first p : Nat) : Channel :=
  { c with uploads := c.uploads ++ [{ ref, zone := z, first, count := p, passed := 0 }] }

/-- A placement of `p` pages on one channel, or none where the channel is passed over (R159). -/
def Media.placeOn (set : Settings) (m : Media) (p : Nat) (ref : EntryRef) (i : ChanNo) : Option (Media × Loc) :=
  let c := m.get i
  let grant (c : Channel) (z first : Nat) (live : Nat) : Media × Loc :=
    let wp := first + p
    let st : ZoneState := if wp = Config.zonePages then .full else .ingestOpen
    let c := (c.setZone z { c.zone z with state := st, wp, live }).addUpload ref z first p
    ({ m.set i c with last := i }, { chan := i, zone := z, first, count := p })
  let openNew : Option (Media × Loc) :=
    if set.reserve < m.freeZones then c.lowestBlank.map (fun b => grant c.closeIngest b 0 p) else none
  if c.state = .inService then
    match c.zoneIn .ingestOpen with
    | some z => if (c.zone z).wp + p ≤ Config.zonePages then some (grant c z (c.zone z).wp ((c.zone z).live + p)) else openNew
    | none => openNew
  else none

/-- The channels in the order a placement tries them: from the one after the last used, wrapping from 3 to 0 (R159). -/
def Media.tryOrder (m : Media) : List ChanNo := [m.last + 1, m.last + 2, m.last + 3, m.last]

/-- A placement of `p` pages for an entry: granted on the first channel that can, or NO_SPACE (R159). -/
def Media.place (set : Settings) (m : Media) (p : Nat) (ref : EntryRef) : Option (Media × Loc) :=
  m.tryOrder.findSome? (fun i => m.placeOn set p ref i)

/-! ### Staging (section 8.4) -/

/-- The pages of a run of a zone hold a page. -/
def inRun (zone first count : Nat) (p : StagePage) : Bool :=
  p.zone == zone && decide (first ≤ p.page ∧ p.page < first + count)

/-- The staging pages in use: filling, queued, and the one whose PROGRAM is in flight (R162). -/
def Channel.stagingUsed (c : Channel) : Nat :=
  c.filling.length + c.ingestQ.length + (match c.op with | some (.programIngest _ true) => 1 | _ => 0)

/-- The free staging pages of a channel (R162). -/
def Channel.stagingFree (c : Channel) : Nat := Config.stagingPages - c.stagingUsed

/-- Withdraw the pages of a run that are filling or queued, and end its upload (R162). -/
def Channel.withdraw (c : Channel) (zone first count : Nat) : Channel :=
  { c with
    filling := c.filling.filter (fun p => !inRun zone first count p)
    ingestQ := c.ingestQ.filter (fun p => !inRun zone first count p)
    uploads := c.uploads.filter (fun u => !(u.zone == zone && u.first == first)) }

/-- Withdraw the upload of a location. -/
def Media.withdraw (m : Media) (l : Loc) : Media := m.set l.chan ((m.get l.chan).withdraw l.zone l.first l.count)

/-- Bytes into the staging page of a page of a segment, taking the staging page where the page has none yet (R31). -/
def Channel.fill (c : Channel) (zone page : Nat) (bs : List Byte) : Channel :=
  if c.filling.any (fun p => p.zone == zone && p.page == page) then
    { c with filling := c.filling.map (fun p => if p.zone == zone && p.page == page then { p with data := p.data ++ bs } else p) }
  else { c with filling := c.filling ++ [{ zone, page, data := bs }] }

/-- Hand a filling page over to the tail of the INGEST queue (R31, R162). -/
def Channel.handOver (c : Channel) (zone page : Nat) : Channel :=
  match c.filling.find? (fun p => p.zone == zone && p.page == page) with
  | some p => { c with filling := c.filling.filter (fun q => !(q.zone == zone && q.page == page)), ingestQ := c.ingestQ ++ [p] }
  | none => c

/-- The 16,384 bytes programmed for a staging page: its bytes, then 0x00 (R162). -/
def StagePage.padded (p : StagePage) : List Byte := p.data ++ List.replicate (Config.pageBytes - p.data.length) 0

/-! ### Arrivals and erase suspension (section 8.6) -/

/-- At the arrival of a read or an audit page, or the PASS of a RESUME: SUSPEND is issued where an erase is RUNNING, READ or
AUDIT work waits, the suspend count is below 8 and no SUSPEND of the erase has failed (R168, log entry 17). -/
def Channel.suspendCheck (c : Channel) : Channel :=
  match c.op, c.erase with
  | some (.erase _), some e =>
    if e.cond = .running ∧ (c.readQ ≠ [] ∨ c.auditQ ≠ []) ∧ e.count < Config.suspendMax ∧ e.failed = false then
      { c with op := some .suspend, erase := some { e with cond := .suspending, count := e.count + 1 } }
    else c
  | _, _ => c

/-- A page read joins the tail of the READ queue (R164). -/
def Channel.pushRead (c : Channel) (r : PageRead) : Channel := { c with readQ := c.readQ ++ [r] }.suspendCheck

/-- An audit page joins the tail of the AUDIT queue (R163). -/
def Channel.pushAudit (c : Channel) (p : AuditPage) : Channel := { c with auditQ := c.auditQ ++ [p] }.suspendCheck

/-- The free places of a READ queue (TABLE 8-3). -/
def Channel.readRoom (c : Channel) : Nat := Config.readQueue - c.readQ.length

/-! ### Media and audit together -/

/-- The media and audit state, on which dispatch and drain act. -/
structure Store where
  media : Media
  audit : Audit
deriving DecidableEq, Repr

/-- A held page takes its place in sequence order (R185 (2)). -/
def insertPage (p : AuditPage) : List AuditPage → List AuditPage
  | [] => [p]
  | q :: qs => if p.first < q.first then p :: q :: qs else q :: insertPage p qs

/-- Pages handed back to the Audit Unit become held (R185 (2)). -/
def Audit.hold (a : Audit) (ps : List AuditPage) : Audit := { a with held := ps.foldl (fun h p => insertPage p h) a.held }

/-- The credits of a round that begins: the weights, the INGEST credit 1 while F is below SPACE_THROTTLE (R167). -/
def roundCredits (set : Settings) (m : Media) : Credits :=
  { read := set.readWeight
    ingest := if m.freeZones < set.throttle then 1 else set.ingestWeight
    reclaim := set.reclaimWeight }

/-- Issue the head of the AUDIT queue as a PROGRAM, giving it its flash location; none where the channel has neither an
AUDIT_OPEN nor a BLANK zone, or no page waits (R163). -/
def Channel.issueAudit (c : Channel) : Option Channel :=
  match c.auditQ with
  | [] => none
  | p :: ps =>
    match c.zoneIn .auditOpen with
    | some z =>
      let page := (c.zone z).wp
      let st : ZoneState := if page + 1 = Config.zonePages then .auditClosed else .auditOpen
      some { c.setZone z { c.zone z with state := st, wp := page + 1 } with
        auditQ := ps, op := some (.programAudit z page p true) }
    | none =>
      c.lowestBlank.map (fun b =>
        { c.setZone b { c.zone b with state := .auditOpen, wp := 1 } with
          auditQ := ps, op := some (.programAudit b 0 p true) })

/-- Issue the head of the READ queue. -/
def Channel.issueRead (c : Channel) : Channel :=
  match c.readQ with
  | r :: rs => { c with readQ := rs, op := some (.read r) }
  | [] => c

/-- Issue the head of the INGEST queue. -/
def Channel.issueIngest (c : Channel) : Channel :=
  match c.ingestQ with
  | p :: ps => { c with ingestQ := ps, op := some (.programIngest p true) }
  | [] => c

/-- Issue the ERASE of the head of the RECLAIM queue (R165); its suspend count is 0 and its suspend-failed mark clear (R168). -/
def Channel.issueErase (c : Channel) : Channel :=
  match c.reclaimQ with
  | z :: zs =>
    { c with
      reclaimQ := zs, op := some (.erase z)
      erase := some { zone := z, cond := .running, count := 0, failed := false, askAfter := false } }
  | [] => c

/-- The class grant of R166 (2): READ, INGEST, RECLAIM in order, the first with work and a credit; none where no class has
both. A FENCED channel serves READ and RECLAIM only. -/
def Channel.grant (c : Channel) : Option Channel :=
  if c.readQ ≠ [] ∧ 0 < c.credits.read then
    some { c.issueRead with credits := { c.credits with read := c.credits.read - 1 } }
  else if c.state = .inService ∧ c.ingestQ ≠ [] ∧ 0 < c.credits.ingest then
    some { c.issueIngest with credits := { c.credits with ingest := c.credits.ingest - 1 } }
  else if c.reclaimQ ≠ [] ∧ 0 < c.credits.reclaim then
    some { c.issueErase with credits := { c.credits with reclaim := c.credits.reclaim - 1 } }
  else none

/-- The class grant, with a new round where no class has both work and credit (R166 (2), (3)). -/
def Channel.arbitrate (fresh : Credits) (c : Channel) : Channel :=
  match c.grant with
  | some c' => c'
  | none =>
    match { c with credits := fresh }.grant with
    | some c' => c'
    | none => c

/-- The AUDIT queue of a channel is handed back to the Audit Unit (R163 (3)). -/
def Store.handBack (s : Store) (i : ChanNo) : Store :=
  { media := s.media.set i { s.media.get i with auditQ := [] }, audit := s.audit.hold (s.media.get i).auditQ }

/-- The arbiter of an idle module (R166): the AUDIT head first, then the classes. An AUDIT queue with no room is handed back. -/
def Store.arbiter (set : Settings) (s : Store) (i : ChanNo) : Store :=
  let c := s.media.get i
  let classes (s : Store) : Store :=
    { s with media := s.media.set i ((s.media.get i).arbitrate (roundCredits set s.media)) }
  if c.state = .inService ∧ c.auditQ ≠ [] then
    match c.issueAudit with
    | some c' => { s with media := s.media.set i c' }
    | none => classes (s.handBack i)
  else classes s

/-- What is issued while an erase is SUSPENDED and the module idle: the AUDIT head, the READ head, or RESUME (R169). -/
def Store.whileSuspended (s : Store) (i : ChanNo) (e : Erase) : Store :=
  let next (s : Store) : Store :=
    let c := s.media.get i
    if c.readQ ≠ [] then { s with media := s.media.set i c.issueRead }
    else { s with media := s.media.set i { c with op := some .resume, erase := some { e with cond := .resuming } } }
  let c := s.media.get i
  if c.auditQ ≠ [] then
    match c.issueAudit with
    | some c' => { s with media := s.media.set i c' }
    | none => next (s.handBack i)
  else next s

/-- A probe of the channel waits for the module (R175). -/
def Channel.probeWaiting (c : Channel) : Bool :=
  match c.probe with
  | some p => decide (p.stage = .waiting)
  | none => false

/-- The module is owed IDENTIFY, and the operation that was in flight at the link reset has completed: the module is idle, and no erase
that was running then is still in progress (R178 (1), log entry 30). -/
def Channel.askDue (c : Channel) : Bool := c.askOwed && c.op.isNone && !c.erase.any (·.askAfter)

/-- A module that is due to be asked is asked (R178 (1)). -/
def Channel.ask (c : Channel) : Channel := if c.askDue then { c with op := some .identify, askOwed := false } else c

/-- Every module that is due to be asked is asked (R178 (1)). -/
def Media.ask (m : Media) : Media := { m with c0 := m.c0.ask, c1 := m.c1.ask, c2 := m.c2.ask, c3 := m.c3.ask }

/-- What a channel whose module is idle issues: IDENTIFY where it is due (R178, log entry 30); nothing while OFFLINE; the work of a
suspended erase (R169); nothing while a probe waits (R166); otherwise what the arbiter grants. -/
def Store.dispatch (set : Settings) (s : Store) (i : ChanNo) : Store :=
  let c := s.media.get i
  if c.op.isSome then s
  else if c.askDue then { s with media := s.media.set i c.ask }
  else if c.state = .offline then s
  else
    match c.erase with
    | some e => s.whileSuspended i e
    | none => if c.probeWaiting then s else s.arbiter set i

/-- Dispatch on every channel, in channel order (DESIGN CHOICE, log entry 40). -/
def Store.dispatchAll (set : Settings) (s : Store) : Store := chanNos.foldl (fun s i => s.dispatch set i) s

/-! ### The drain of the audit buffer (section 9.3) -/

/-- The audit pages that stand at a channel: the one in flight that the Audit Unit still waits for, then the queue. -/
def Channel.auditPages (c : Channel) : List AuditPage :=
  (match c.op with | some (.programAudit _ _ p true) => [p] | _ => []) ++ c.auditQ

/-- The outstanding pages (section 9.3). -/
def Media.outstanding (m : Media) : List AuditPage := (chanNos.map (fun i => (m.get i).auditPages)).flatten

/-- The number of undrained records: those of the buffer that stand in no page (section 9.2). -/
def Store.undrained (s : Store) : Nat :=
  s.audit.buffer.length - ((s.media.outstanding ++ s.audit.held).map (·.count)).sum

/-- The elapsed second since which the oldest undrained record waits (R184). -/
def Store.oldest (s : Store) : Option Nat := (s.audit.buffer[s.audit.buffer.length - s.undrained]?).map (·.since)

/-- The oldest undrained record has waited 5 seconds at the elapsed second `now` (R184 (2)). -/
def Store.overdue (now : Nat) (s : Store) : Bool :=
  match s.oldest with
  | some m => decide (m + Config.auditWait ≤ now)
  | none => false

/-- A channel has room for the drain: an AUDIT_OPEN zone or a BLANK data zone (R183). -/
def Channel.hasRoom (c : Channel) : Bool := (c.zoneIn .auditOpen).isSome || c.lowestBlank.isSome

/-- The drain channel the choice of R183 gives. -/
def Media.drainChoice (m : Media) : Option ChanNo :=
  chanNos.find? (fun i => decide ((m.get i).state = .inService) && (m.get i).hasRoom)

/-- The drain channel is chosen again where no page is outstanding; a channel other than the last used closes the former
drain channel's AUDIT_OPEN zone (R183). -/
def Store.chooseDrain (s : Store) : Store :=
  if s.media.outstanding ≠ [] then s
  else
    match s.media.drainChoice with
    | none => { s with audit := { s.audit with drain := none } }
    | some i =>
      if i = s.audit.drainLast then { s with audit := { s.audit with drain := some i } }
      else
        { media := s.media.set s.audit.drainLast (s.media.get s.audit.drainLast).closeAudit
          audit := { s.audit with drain := some i, drainLast := i } }

/-- One page is presented to the drain channel where its AUDIT queue has a place: a held page first, otherwise a page formed of the
oldest undrained records, up to 64, where 64 are undrained or the oldest has waited 5 seconds (R184). A page in flight keeps its
place of the queue until it is reported (log entry 8). -/
def Store.presentOne (now : Nat) (s : Store) : Store :=
  match s.audit.drain with
  | none => s
  | some i =>
    let c := s.media.get i
    if c.state = .inService ∧ c.auditPages.length < Config.auditQueue then
      match s.audit.held with
      | p :: ps => { media := s.media.set i (c.pushAudit p), audit := { s.audit with held := ps } }
      | [] =>
        let n := s.undrained
        if Config.recsPerPage ≤ n ∨ s.overdue now = true then
          { s with media := s.media.set i (c.pushAudit { first := s.audit.counter - n, count := min Config.recsPerPage n }) }
        else s
    else s

/-- The drain channel is chosen, and pages are presented one after another while its queue of 4 accepts (R183, R184). -/
def Store.present (now : Nat) (s : Store) : Store :=
  (((s.chooseDrain.presentOne now).presentOne now).presentOne now).presentOne now

/-- The media and the drain at the end of an event: pages are presented, idle modules take work, and where that handed pages
back the drain is settled once more (R166, R169, R183 to R185). That the presentation comes before the idle modules take work, so that
a page is formed also where its issue then finds no room and it is held, is a DESIGN CHOICE: R184 and R166 both speak of the same event
(log entry 40). -/
def Store.settle (set : Settings) (now : Nat) (s : Store) : Store :=
  (((s.present now).dispatchAll set).present now).dispatchAll set

/-- The store of a state. -/
def State.store (s : State) : Store := { media := s.media, audit := s.audit }

/-- Write the store back. -/
def State.withStore (s : State) (t : Store) : State := { s with media := t.media, audit := t.audit }

/-- Raise SPACE_LOW and SPACE_RESERVE where their conditions have become true since the state `s0` before the event (R161,
log entry 19). -/
def State.noteSpace (s0 s : State) : State :=
  let low (x : State) : Bool := decide (x.media.freeZones < x.settings.throttle)
  let res (x : State) : Bool := decide (x.media.freeZones ≤ x.settings.reserve)
  let s1 := s.raiseIf (!low s0 && low s) .spaceLow
  s1.raiseIf (!res s0 && res s) .spaceReserve

/-- The end of an event that began in state `s0`: while requests are taken, the media and the drain settle, and the space
notices are raised where their conditions have become true. During start-up the one operation issued is the IDENTIFY of a module
whose operation has completed (R178 (1), log entry 30). -/
def State.closeEvent (s0 s : State) : State :=
  if s.taking then State.noteSpace s0 (s.withStore (s.store.settle s.settings s.timer)) else { s with media := s.media.ask }

end Sys2Proof.Machine
end

