-- ==== Sys2Proof/Machine/AuditTrail.lean ====
section
/-! DEFINITION. The append of an audit record (R179, R182) and the records of an audit page. -/

namespace Sys2Proof.Machine

/-- The record an append makes (R179 (1) to (4)), appended at `since` of the timers. -/
def Audit.nextRecord (a : Audit) (second since : Nat) (kind : AuditKind) (subject : List Field) : Record :=
  { seq := a.counter, second, since, kind, subject, chain := chainOf a.chain (recordBody a.counter second kind subject) }

/-- The audit state after an append: the record joins the tail of the buffer, the counter increases by 1 and the stored chain
value is the record's (R179). -/
def Audit.append (a : Audit) (second since : Nat) (kind : AuditKind) (subject : List Field) : Audit :=
  let r := a.nextRecord second since kind subject
  { a with buffer := a.buffer ++ [r], counter := a.counter + 1, chain := r.chain }

/-- An append: the record takes the counter's archive second, which is written into the HWM (R179 (2), R3 (2)); AUDIT_HALF and
AUDIT_FULL are raised at the 1,024th and the 2,048th record (R182). -/
def State.append (s : State) (kind : AuditKind) (subject : List Field) : State :=
  let t := { s with
    audit := s.audit.append s.clock.counter s.timer kind subject
    clock := { s.clock with hwm := s.clock.counter } }
  (t.raiseIf (decide (t.audit.buffer.length = Config.auditHalf)) .auditHalf).raiseIf
    (decide (t.audit.buffer.length = Config.auditBuffer)) .auditFull

/-- The 16,384 bytes of an audit page: its records in sequence order, then 0x00 (section 9.3). -/
def Audit.pageBytes (a : Audit) (p : AuditPage) : List Byte :=
  let bs := ((a.buffer.filter (fun r => decide (p.first ≤ r.seq ∧ r.seq < p.first + p.count))).map Record.bytes).flatten
  bs ++ List.replicate (Config.pageBytes - bs.length) 0

/-- The page map entry that names a sequence number (R186). -/
def Audit.mapped (a : Audit) (seq : Nat) : Option MapEntry :=
  a.map.find? (fun e => decide (e.first ≤ seq ∧ seq < e.first + e.count))

/-- The records of the buffer from a sequence number on, at most `n` (R187 (3)). -/
def Audit.fromBuffer (a : Audit) (seq n : Nat) : List Record := (a.buffer.filter (fun r => decide (seq ≤ r.seq))).take n

/-- An accepted request that appends one record: its effect `t` on the state, the append, the end of the event, and the reply
before every other frame. -/
def State.accept (s : State) (tag : Byte) (code : Nat) (st : Status) (p : List Field) (kind : AuditKind) (subject : List Field)
    (t : State) : State :=
  s.answer tag code st p (State.closeEvent s (t.append kind subject))

end Sys2Proof.Machine
end

