-- ==== Sys2Proof/Machine/Uploads.lean ====
section
/-! DEFINITION. Contexts, slots, idle deadlines and uploads (chapters 2 and 3): the end of an upload, the handover to a waiter,
claims and the freeing of entries. -/

namespace Sys2Proof.Machine

/-! ### Idle deadlines (section 2.6) -/

/-- The two conditions under which a context's idle deadline is suspended (R45). -/
def OpenCtx.suspends (o : OpenCtx) : Bool :=
  if o.committing then o.slots.all (fun s => match s with | .sending _ _ _ => false | _ => true)
  else
    o.slots.any (fun s => match s with | .waiting _ => true | _ => false) &&
      o.slots.all (fun s => match s with | .waiting _ => true | .ready _ => true | _ => false)

/-- The deadline after an event: suspended, restarted in full where a suspension has ended, or as it runs (R45). -/
def OpenCtx.retime (timer timeout : Nat) (o : OpenCtx) : OpenCtx :=
  if o.suspends then { o with deadline := .suspended }
  else
    match o.deadline with
    | .suspended => { o with deadline := .running (timer + timeout) }
    | .running _ => o

/-- The deadlines of every context at the end of an event (R45). -/
def State.retimeAll (s : State) : State :=
  { s with ingest := { s.ingest with
      ctxs := Table.mapVal (fun c => { c with body := c.body.map (OpenCtx.retime s.timer s.settings.timeout) }) s.ingest.ctxs } }

/-- A request that names a context restarts its deadline where that is running (R25). -/
def OpenCtx.restart (timer timeout : Nat) (o : OpenCtx) : OpenCtx :=
  match o.deadline with
  | .running _ => { o with deadline := .running (timer + timeout) }
  | .suspended => o

/-- The state once a request that names context `c`, holding `o`, has been taken (R25). -/
def State.touch (s : State) (c : Nat) (o : OpenCtx) : State :=
  { s with ingest := s.ingest.setOpen c (o.restart s.timer s.settings.timeout) }

/-! ### Slots -/

/-- The declaration a slot holds. -/
def Slot.decl : Slot → Option Decl
  | .empty => none
  | .sending d _ _ => some d
  | .writing d => some d
  | .waiting d => some d
  | .ready d => some d

/-- What the context of an owner or waiter holds, where its reference still names it (R24). -/
def State.ctxOf (s : State) (r : SlotRef) : Option OpenCtx := s.ingest.named { ctx := r.ctx, gen := r.gen }

/-- Write a slot of a context. -/
def State.setSlot (s : State) (r : SlotRef) (v : Slot) : State :=
  match s.ctxOf r with
  | some o => { s with ingest := s.ingest.setOpen r.ctx { o with slots := o.slots.set r.slot v } }
  | none => s

/-- A slot becomes EMPTY; a pending commit of its context is cancelled: the context leaves the commit-ready list and returns to
RECEIVING (R33, R37). -/
def State.emptySlot (s : State) (r : SlotRef) : State :=
  match s.ctxOf r with
  | some o =>
    let g := s.ingest.setOpen r.ctx { o with slots := o.slots.set r.slot .empty, committing := false }
    { s with ingest := { g with ready := g.ready.filter (fun c => c != r.ctx) } }
  | none => s

/-- A context joins the tail of the commit-ready list where it is COMMITTING with every slot READY (R40). -/
def State.joinReady (s : State) (c : Nat) : State :=
  match (s.ingest.ctx c).body with
  | some o =>
    if o.committing ∧ o.allReady ∧ c ∉ s.ingest.ready then { s with ingest := { s.ingest with ready := s.ingest.ready ++ [c] } } else s
  | none => s

/-- The payload of the reports that name a slot. -/
def slotFields (r : SlotRef) : List Field := Fld.ctxRef r.ctx r.gen ++ [Fld.u16 r.slot]

/-- A slot becomes READY by owner success: its context may join the commit-ready list, and SEGMENT_READY is sent (R34, R59). -/
def State.readySlot (s : State) (r : SlotRef) : State :=
  match s.ctxOf r with
  | some o =>
    match (o.slots[r.slot]?).bind Slot.decl with
    | some d => ((s.setSlot r (.ready d)).joinReady r.ctx).report Code.segmentReady (slotFields r)
    | none => s
  | none => s

/-- Why an upload ended (section 3.4, R204). -/
inductive EndCause where
  | digest | media | abort | timeout
deriving DecidableEq, Repr

/-- The byte of a cause (R204); NO_SPACE is 0x05 and no reason 0x00. -/
def EndCause.code : EndCause → Nat
  | .digest => 1
  | .media => 2
  | .abort => 3
  | .timeout => 4

/-- A SEGMENT_FAILED report: cause, reason of the upload waited for, context state after the event (TABLE 2-4). It is not
sent to a context that is FREE (R48). -/
def State.reportFailed (s : State) (r : SlotRef) (cause reason : Nat) : State :=
  match s.ctxOf r with
  | some o => s.report Code.segmentFailed (slotFields r ++ [Fld.u8 cause, Fld.u8 reason, Fld.ctxState (some o)])
  | none => s

/-! ### The end of an upload (section 3.4) -/

/-- A waiter becomes the owner of an upload: SENDING with 0 bytes received and a fresh running digest, and SEGMENT_SEND is
sent (R36 (2)). -/
def State.startSending (s : State) (r : SlotRef) : State :=
  match s.ctxOf r with
  | some o =>
    match (o.slots[r.slot]?).bind Slot.decl with
    | some d =>
      (s.setSlot r (.sending d 0 Sha.start)).report Code.segmentSend (slotFields r ++ [Fld.u32 d.length])
    | none => s
  | none => s

/-- The handover of R60 over the waiters, oldest first: the first that obtains a placement becomes the owner; each refused
with NO_SPACE becomes EMPTY and is told; with none left the entry becomes FREE (R61). -/
def State.handover (cause : EndCause) (ref : EntryRef) (e : SegEntry) : List SlotRef → State → State
  | [], s => { s with segs := s.segs.del ref }
  | w :: ws, s =>
    match s.media.place s.settings e.loc.count ref with
    | some (m, l) =>
      State.startSending { s with media := m, segs := s.segs.put ref { e with loc := l, owner := some w, waiters := ws } } w
    | none => State.handover cause ref e ws ((s.emptySlot w).reportFailed w 5 cause.code)

/-- Owner failure: the pages of the placement become dead and the upload is handed over (R60, R61). -/
def State.ownerFailure (s : State) (ref : EntryRef) (cause : EndCause) : State :=
  match s.segs.entry ref with
  | some e => State.handover cause ref e e.waiters { s with media := s.media.deadPages e.loc }
  | none => s

/-- Owner success: the entry becomes STORED with a claim for the owner and for each waiter, and they become READY in order
(R59). -/
def State.ownerSuccess (s : State) (ref : EntryRef) : State :=
  match s.segs.entry ref with
  | some e =>
    let e' := { e with stored := true, claims := 1 + e.waiters.length, owner := none, waiters := [] }
    let t := { s with segs := s.segs.put ref e' }
    (e.owner.toList ++ e.waiters).foldl State.readySlot t
  | none => s

/-- An upload fails on the media (R35, R170 (1)): its staged and queued pages are withdrawn, the owner slot becomes EMPTY and is
told with cause MEDIA, and owner failure follows. -/
def State.uploadFails (s : State) (i : ChanNo) (u : Upload) : State :=
  let l : Loc := { chan := i, zone := u.zone, first := u.first, count := u.count }
  let t := { s with media := s.media.withdraw l }
  match (s.segs.entry u.ref).bind (·.owner) with
  | some o => ((t.emptySlot o).reportFailed o 2 0).ownerFailure u.ref .media
  | none => t.ownerFailure u.ref .media

/-! ### Claims and freeing (section 3.5) -/

/-- A STORED entry with no refs, no claims and no pin becomes FREE, and its pages become dead (R66). -/
def State.freeIdle (s : State) (ref : EntryRef) : State :=
  match s.segs.entry ref with
  | some e =>
    if e.stored ∧ e.refs = 0 ∧ e.claims = 0 ∧ e.pinned = false then
      { s with segs := s.segs.del ref, media := s.media.deadPages e.loc }
    else s
  | none => s

/-- An entry's claims decrease by 1 (R64). -/
def Segs.dropClaim (t : Segs) (ref : EntryRef) : Segs :=
  match t.entry ref with
  | some e => t.put ref { e with claims := e.claims - 1 }
  | none => t

/-- One slot of a committing item: the claim turns into a ref, unless the entry is pinned; the ref that reaches 16,777,215 pins
it (R42 (8), R65, R67). -/
def Segs.claimToRef (t : Segs) (ref : EntryRef) : Segs :=
  match t.entry ref with
  | some e =>
    let refs := if e.pinned then e.refs else e.refs + 1
    t.put ref { e with claims := e.claims - 1, refs, pinned := e.pinned || decide (refs = Config.refsMax) }
  | none => t

/-- One slot of an item that is disposed of: the entry's refs decrease by 1 unless it is pinned (R65, R67). -/
def Segs.dropRef (t : Segs) (ref : EntryRef) : Segs :=
  match t.entry ref with
  | some e => t.put ref { e with refs := if e.pinned then e.refs else e.refs - 1 }
  | none => t

/-- A waiter leaves the list it stands in, the order of the others kept (R62). -/
def Segs.dropWaiter (t : Segs) (ref : EntryRef) (w : SlotRef) : Segs :=
  match t.entry ref with
  | some e => t.put ref { e with waiters := e.waiters.filter (fun v => v != w) }
  | none => t

/-! ### Giving up a context (R44, R46) -/

/-- Step (1) of R44 for one slot: a WAITING slot is removed from its entry's waiter list. -/
def State.giveUpWait (c gen : Nat) (s : State) (x : Slot × Nat) : State :=
  match x.1 with
  | .waiting d => { s with segs := s.segs.dropWaiter d.ref { ctx := c, gen, slot := x.2 } }
  | _ => s

/-- Step (2) of R44 for one slot: a READY slot gives back its claim, and the entry may be freed. -/
def State.giveUpClaim (s : State) (x : Slot × Nat) : State :=
  match x.1 with
  | .ready d => State.freeIdle { s with segs := s.segs.dropClaim d.ref } d.ref
  | _ => s

/-- Step (3) of R44 for one slot: a SENDING or WRITING slot's pages are withdrawn and owner failure is applied. -/
def State.giveUpUpload (cause : EndCause) (s : State) (x : Slot × Nat) : State :=
  let fail (d : Decl) : State :=
    match s.segs.entry d.ref with
    | some e => State.ownerFailure { s with media := s.media.withdraw e.loc } d.ref cause
    | none => s
  match x.1 with
  | .sending d _ _ => fail d
  | .writing d => fail d
  | _ => s

/-- Step (4) of R44: the context leaves the commit-ready list and becomes FREE, its generation kept. -/
def Ingest.release (g : Ingest) (c : Nat) : Ingest :=
  { g.setCtx c { g.ctx c with body := none } with ready := g.ready.filter (fun n => n != c) }

/-- A context gives up everything it holds, in the order of R44. Within step (2) the READY slots give back their claims in slot order,
which R44 states of step (3) only: where several entries are freed it says whose zone joins its RECLAIM queue first (DESIGN CHOICE, log
entry 40). -/
def State.giveUp (s : State) (c : Nat) (o : OpenCtx) (cause : EndCause) : State :=
  let xs := o.slots.zipIdx
  let s1 := xs.foldl (State.giveUpWait c (s.ingest.ctx c).gen) s
  let s2 := xs.foldl State.giveUpClaim s1
  let s3 := xs.foldl (State.giveUpUpload cause) s2
  { s3 with ingest := s3.ingest.release c }

end Sys2Proof.Machine
end

