-- ==== Sys2Proof/Machine/Coverage.lean ====
section
/-! DEFINITION. The coverage check and the full coverage evaluation (section 6.3), the policy evaluation (section 4.4) and the
commit operation (section 2.5.1). -/

namespace Sys2Proof.Machine

/-! ### Coverage -/

/-- A sent day lies within a matter's range; an absent range bounds nothing (R126 (3)). -/
def inRange (r : Option (Nat × Nat)) (day : Nat) : Bool :=
  match r with
  | none => true
  | some (a, b) => decide (a ≤ day ∧ day ≤ b)

/-- Matter `m` covers an item of a domain, sent day and party list (R126). -/
def Hold.covers (h : Hold) (m domain sentDay : Nat) (parties : List Key) : Bool :=
  match h.matter m with
  | .active f =>
    f.domains.getLsbD domain && inRange f.range sentDay && (f.allParties || parties.any (fun k => (h.maskOf k).getLsbD m))
  | _ => false

/-- The mask of the first `n` matters that cover an item. -/
def Hold.coverBelow (h : Hold) (domain sentDay : Nat) (parties : List Key) : Nat → BitVec 64
  | 0 => 0
  | n + 1 =>
    if h.covers n domain sentDay parties then h.coverBelow domain sentDay parties n ||| bit64 n
    else h.coverBelow domain sentDay parties n

/-- The full coverage evaluation: the set of matters that cover an item (R127). -/
def Hold.coverage (h : Hold) (domain sentDay : Nat) (parties : List Key) : BitVec 64 :=
  h.coverBelow domain sentDay parties Config.matters

/-- The coverage sync of an item: mask and count written from the full coverage evaluation (R127). -/
def Hold.sync (h : Hold) (r : ItemRec) (l : LiveItem) : LiveItem :=
  let m := h.coverage r.domain l.sentDay l.parties
  { l with holdMask := m, holdCount := popCount m }

/-! ### Policy evaluation -/

/-- What the tests of a policy evaluation read (R87). -/
structure EvalItem where
  env : Envelope
  bytes : Nat
  archive : BitVec 8
  custodian : Bool
deriving DecidableEq, Repr

/-- The progress of a policy evaluation: class set, item flags, call stack, CLASS_LIMIT remark (R88, R89). -/
structure Eval where
  classes : List Nat
  flags : BitVec 8
  stack : List Nat
  limit : Bool
deriving DecidableEq, Repr

/-- The result of a test (TABLE 4-2). -/
def testHolds (t : PolicyTest) (x : EvalItem) (flags : BitVec 8) : Bool :=
  match t with
  | .always => true
  | .domain d => x.env.domain == d
  | .tag n => x.env.tags.getLsbD n
  | .partiesAtLeast n => decide (n ≤ x.env.parties.length)
  | .segmentsAtLeast n => decide (n ≤ x.env.segCount)
  | .sizeAtLeast k => decide (k * 1024 ≤ x.bytes)
  | .hasEventKey => x.env.event.isSome
  | .itemFlag f => flags.getLsbD f
  | .archiveFlag f => x.archive.getLsbD f
  | .anyCustodian => x.custodian

/-- A class joins the class set: no class twice, and beyond four the CLASS_LIMIT remark (R89). -/
def Eval.addClass (v : Eval) (c : Nat) : Eval :=
  if c ∈ v.classes then v
  else if Config.classesPerItem ≤ v.classes.length then { v with limit := true }
  else { v with classes := v.classes ++ [c] }

/-- The evaluation from an entry with `n` visits left: the progress it ends with, and whether it faulted (R88 to R91). An entry
number of 512 or above is past the end of the list. -/
def Policy.evalFrom (p : Policy) (x : EvalItem) : Nat → Nat → Eval → Eval × Bool
  | 0, e, v => (v, decide (e < Config.policyEntries))
  | n + 1, e, v =>
    if Config.policyEntries ≤ e then (v, false)
    else
      match p.entry e with
      | .unused => (v, true)
      | .used t w a =>
        if testHolds t x v.flags = w then
          match a with
          | .cls c => if (p.cls c).state = .undefined then (v, true) else p.evalFrom x n (e + 1) (v.addClass c)
          | .flags set clear => p.evalFrom x n (e + 1) { v with flags := maskFlags v.flags set clear }
          | .goto e' => p.evalFrom x n e' v
          | .call e' =>
            if Config.callDepth ≤ v.stack.length then (v, true) else p.evalFrom x n e' { v with stack := (e + 1) :: v.stack }
          | .ret =>
            match v.stack with
            | [] => (v, true)
            | e' :: st => p.evalFrom x n e' { v with stack := st }
          | .stop => (v, false)
        else p.evalFrom x n (e + 1) v

/-- The policy evaluation of an item of a domain (R88): its progress with the fallback class added at a fault, or where the
class set is empty, and whether it faulted (R91). -/
def Policy.evaluate (p : Policy) (d : DomainRec) (x : EvalItem) : Eval × Bool :=
  let r := p.evalFrom x Config.visitCap d.start { classes := [], flags := 0, stack := [], limit := false }
  match d.fallback with
  | none => r
  | some c => if r.2 ∨ r.1.classes = [] then (r.1.addClass c, r.2) else r

/-! ### The commit operation -/

/-- What a commit hands to its reply or report (R38, R40). -/
structure Committed where
  item : Nat
  expiry : Expiry
  holdCount : Nat
  classes : List Nat
  remarks : Remarks
deriving DecidableEq, Repr

/-- The fields of a commit reply and of a COMMITTED report: item number, expiry, hold count, class set, remarks (R38, TABLE
10-11). -/
def Committed.fields (k : Committed) : List Field :=
  [Fld.u24 k.item] ++ Fld.expiry k.expiry ++ [Fld.u8 k.holdCount] ++ Fld.classSet k.classes ++ [Fld.remarks k.remarks]

/-- One class of a committed item: its in-use count increases by 1, and in COMPLIANT mode a DEFINED class becomes LOCKED
(R43 (11)). -/
def Policy.takeClass (compliant : Bool) (p : Policy) (c : Nat) : Policy :=
  let r := p.cls c
  let st : ClassState :=
    match r.state with
    | .defined d => if compliant then .locked d else .defined d
    | st => st
  p.setCls c { state := st, inUse := r.inUse + 1 }

/-- Any class of a set is EVENT-anchored (R42 (10)). -/
def Policy.anyEvent (p : Policy) (cs : List Nat) : Bool :=
  cs.any (fun c => match (p.cls c).state.defn with | some d => decide (d.anchor = .event) | none => false)

/-- A number is appended to a key's item list (R105). -/
def Index.appendEvent (x : Index) (k : Option Key) (n : Nat) : Index :=
  match k with
  | some k =>
    match x.event k with
    | some e => x.setEvent k { e with items := e.items ++ [n] }
    | none => x
  | none => x

/-- The item record a commit writes and what its evaluation found: stages (1) to (7) of R41 and R42. -/
def State.commitRecord (s : State) (o : OpenCtx) : ItemRec × LiveItem :=
  let dom := s.policy.domain o.env.domain
  let decls := o.slots.filterMap Slot.decl
  let sent := sentClamp o.env.sent s.today dom.backdate
  let ev := s.policy.evaluate dom
    { env := o.env, bytes := (decls.map (·.length)).sum, archive := s.policy.flags
      custodian := o.env.parties.any (fun k => (s.hold.find k).isSome) }
  let exp := itemExpiry s.policy ev.1.classes s.today sent.1 (s.index.keyState o.env.event)
  let mask := s.hold.coverage o.env.domain sent.1 o.env.parties
  let live : LiveItem :=
    { state := .retained, sentDay := sent.1, tags := o.env.tags, flags := ev.1.flags, holdMask := mask
      holdCount := popCount mask, event := o.env.event, parties := o.env.parties
      segs := decls.map (fun d => { digest := d.digest, length := d.length, ref := d.ref }) }
  ({ domain := o.env.domain, commitSecond := s.clock.counter, classes := ev.1.classes, expiry := exp.1
     remarks := { policyFault := ev.2, classLimit := ev.1.limit, noEventKey := exp.2, sentClamped := sent.2 }
     fingerprint := fingerprintOf (decls.map (·.digest)), body := .live live }, live)

/-- The commit operation on context `c`, which holds `o` with every slot READY (R41 to R43). -/
def State.commit (s : State) (c : Nat) (o : OpenCtx) : State × Committed :=
  let r := (s.commitRecord o).1
  let l := (s.commitRecord o).2
  let n := s.index.next
  let x := { s.index.setItem n r with next := n + 1 }.toCalendar r.expiry n
  let s1 : State := { s with
    index := if s.policy.anyEvent r.classes then x.appendEvent o.env.event n else x
    segs := (l.segs.map (·.ref)).foldl Segs.claimToRef s.segs
    policy := r.classes.foldl (Policy.takeClass s.compliant) s.policy }
  let s2 := (s1.raiseIf r.remarks.policyFault .policyFault).append .itemCommitted
    ([Fld.u24 n, Fld.u8 r.domain, Fld.u64 r.commitSecond, Fld.u32 l.sentDay] ++ Fld.classSet r.classes ++ Fld.expiry r.expiry ++
      [Fld.u8 l.holdCount, Fld.remarks r.remarks, Fld.digest r.fingerprint])
  ({ s2 with ingest := s2.ingest.release c },
    { item := n, expiry := r.expiry, holdCount := l.holdCount, classes := r.classes, remarks := r.remarks })

/-! ### The commit-ready list (R40) -/

/-- The head of the commit-ready list leaves it and commits, where an audit slot is free, and its host is sent COMMITTED (R40). -/
def State.commitHead (s : State) : State :=
  match s.ingest.ready with
  | [] => s
  | c :: _ =>
    match (s.ingest.ctx c).body with
    | some o =>
      if s.slotFree then
        let k := s.commit c o
        k.1.report Code.committed (Fld.ctxRef c (s.ingest.ctx c).gen ++ k.2.fields)
      else s
    | none => s

/-- The heads of the commit-ready list commit in turn, until the list is empty or no audit slot is free (R40, log entry 38). -/
def State.commitReady (s : State) : State := s.ingest.ready.foldl (fun t _ => t.commitHead) s

end Sys2Proof.Machine
end

