-- ==== Sys2Proof/Machine/Sweeps.lean ====
section
/-! DEFINITION. The sweep engine (section 5.5), the effect of each kind of sweep step on an item (R94, R95, R105, R109, R110, R130,
R131), and the end of a sweep with what the Hold Unit does at it (R114, R121). -/

namespace Sys2Proof.Machine

/-! ### The sweep queue -/

/-- The requests that wait: those behind the head while the head runs (R111). -/
def Index.waiting (x : Index) : List SweepReq := if x.run.isSome then x.sweeps.tail else x.sweeps

/-- What the engine answers of an admitted request; `notNeeded` where its producer presents none (R107). -/
inductive SweepAnswer where
  | queued | merged | notNeeded
deriving DecidableEq, Repr

/-- The byte of a sweep answer, in the order of R107. -/
def SweepAnswer.code : SweepAnswer → Nat
  | .queued => 0
  | .merged => 1
  | .notNeeded => 2

/-- The places a list of requests needs after merging (R111). -/
def Index.placesNeeded (x : Index) (rs : List SweepReq) : Nat := (rs.filter (fun r => decide (r ∉ x.waiting))).length

/-- The engine admits the requests presented together: the places they need do not exceed the free places (R111). -/
def Index.admits (x : Index) (rs : List SweepReq) : Bool :=
  decide (x.placesNeeded rs = 0 ∨ x.sweeps.length + x.placesNeeded rs ≤ Config.sweepQueue)

/-- The answer to one request against the waiting requests (R111). -/
def Index.answerOf (x : Index) (r : SweepReq) : SweepAnswer := if r ∈ x.waiting then .merged else .queued

/-- The limit and cursor a sweep starts with (R112). -/
def Index.startRun (x : Index) : SweepReq → SweepRun
  | .event k => { limit := ((x.event k).map (fun e => e.items.length)).getD 0, cursor := 0, changed := 0 }
  | _ => { limit := x.next - 1, cursor := 1, changed := 0 }

/-- The head of the queue starts where no sweep runs (R112). -/
def Index.startSweep (x : Index) : Index :=
  match x.run, x.sweeps with
  | none, r :: _ => { x with run := some (x.startRun r) }
  | _, _ => x

/-- The queue after requests are admitted: those that do not merge take places at the tail, in order, and the head starts
where none ran (R111, R112). -/
def Index.enqueue (x : Index) (rs : List SweepReq) : Index :=
  Index.startSweep { x with sweeps := x.sweeps ++ rs.filter (fun r => decide (r ∉ x.waiting)) }

/-- The running sweep's cursor has passed its limit (R114). -/
def SweepReq.past (r : SweepReq) (u : SweepRun) : Bool :=
  match r with
  | .event _ => decide (u.limit ≤ u.cursor)
  | _ => decide (u.limit < u.cursor)

/-- The running sweep and its request. -/
def Index.running (x : Index) : Option (SweepReq × SweepRun) :=
  match x.sweeps, x.run with
  | r :: _, some u => some (r, u)
  | _, _ => none

/-- A step has been taken: the cursor advances by one, and the changed count by one where the step changed the item (R113). -/
def State.advance (s : State) (u : SweepRun) (changed : Bool) : State :=
  { s with index := { s.index with run := some { u with cursor := u.cursor + 1, changed := u.changed + changed.toNat } } }

/-! ### The disposition queue as sweep steps change it -/

/-- An item leaves the disposition queue from any place; the order of the others is kept, and the freed place ends a due
pause (R139, R141). -/
def Dispo.remove (d : Dispo) (i : Nat) : Dispo := { d with queue := d.queue.filter (fun e => e.item != i), duePause := false }

/-! ### CLASS and EVENT steps -/

/-- What R95 and R110 do with an item whose expiry a step has changed: its state, the calendar and the disposition queue. -/
def State.moveItem (s : State) (i : Nat) (r : ItemRec) (l : LiveItem) (new : Expiry) : State :=
  let later := new.laterThan s.today
  let write (st : LiveState) (x : Index) : Index := x.setItem i { r with expiry := new, body := .live { l with state := st } }
  match l.state with
  | .retained => { s with index := (write .retained (s.index.uncalendar r.expiry i)).toCalendar new i }
  | .eligible =>
    if later then { s with index := (write .retained s.index).toCalendar new i, dispo := s.dispo.remove i }
    else { s with index := write .eligible s.index }
  | .expiredHeld =>
    if later then { s with index := (write .retained s.index).toCalendar new i } else { s with index := write .expiredHeld s.index }
  | .released => { s with index := write .released s.index }

/-- The recompute and merge of one item (R92, R93, R94, R109): the state after it, and whether the expiry changed. A recompute
that reports NO_EVENT_KEY adds the remark. -/
def State.recompute (s : State) (i : Nat) (r : ItemRec) (l : LiveItem) : State × Bool :=
  let e := itemExpiry s.policy r.classes (dayOf r.commitSecond) l.sentDay (s.index.keyState l.event)
  let r' := { r with remarks := { r.remarks with noEventKey := r.remarks.noEventKey || e.2 } }
  let new := r.expiry.merge e.1
  if new = r.expiry then ({ s with index := s.index.setItem i r' }, false) else (s.moveItem i r' l new, true)

/-- The key-list append of a CLASS sweep step (R105 (2)). -/
def State.classAppend (s : State) (c i : Nat) (l : LiveItem) : State :=
  match l.event with
  | some k =>
    match s.index.event k with
    | some e =>
      if s.policy.anyEvent [c] ∧ i ∉ e.items then { s with index := s.index.appendEvent (some k) i } else s
    | none => s
  | none => s

/-- The effect of a CLASS sweep of class `c` on item `i` (R94), and whether the item's expiry changed. -/
def State.classStep (s : State) (c i : Nat) : State × Bool :=
  match s.index.item i with
  | some r =>
    match r.body with
    | .live l =>
      if c ∈ r.classes then
        let t := s.recompute i r l
        (t.1.classAppend c i l, t.2)
      else (s, false)
    | .disposed _ => (s, false)
  | none => (s, false)

/-- The effect of an EVENT sweep on item `i` (R109), and whether the item's expiry changed. -/
def State.eventStep (s : State) (i : Nat) : State × Bool :=
  match s.index.item i with
  | some r =>
    match r.body with
    | .live l => s.recompute i r l
    | .disposed _ => (s, false)
  | none => (s, false)

/-! ### HOLD steps -/

/-- The item and the state after a HOLD sweep step has changed a mask (TABLE 6-2): an ELIGIBLE item whose count rises from 0
leaves the queue and becomes EXPIRED_HELD; an EXPIRED_HELD item whose count falls to 0 becomes RETAINED and is inserted
in the calendar under its expiry. -/
def State.holdMove (s : State) (i : Nat) (r : ItemRec) (l : LiveItem) : State :=
  match l.state with
  | .eligible =>
    if 0 < l.holdCount then
      { s with index := s.index.setItem i { r with body := .live { l with state := .expiredHeld } }, dispo := s.dispo.remove i }
    else { s with index := s.index.setItem i { r with body := .live l } }
  | .expiredHeld =>
    if l.holdCount = 0 then
      { s with index := (s.index.setItem i { r with body := .live { l with state := .retained } }).toCalendar r.expiry i }
    else { s with index := s.index.setItem i { r with body := .live l } }
  | _ => { s with index := s.index.setItem i { r with body := .live l } }

/-- The effect of a HOLD sweep of matter `m` on item `i` (R130), and whether the mask changed. -/
def State.holdStep (s : State) (m i : Nat) : State × Bool :=
  match s.index.item i with
  | some r =>
    match r.body with
    | .live l =>
      let cov := s.hold.covers m r.domain l.sentDay l.parties
      let has := l.holdMask.getLsbD m
      if cov = has then (s, false)
      else if cov then
        (s.holdMove i r { l with holdMask := l.holdMask ||| bit64 m, holdCount := l.holdCount + 1 }, true)
      else (s.holdMove i r { l with holdMask := l.holdMask &&& ~~~(bit64 m), holdCount := l.holdCount - 1 }, true)
    | .disposed _ => (s, false)
  | none => (s, false)

/-! ### The end of a sweep -/

/-- A matter that becomes FREE leaves the mask of every custodian entry, and an entry whose mask becomes empty is removed
(R121 (3), R122). -/
def Hold.free (h : Hold) (m : Nat) : Hold :=
  { h.setMatter m .free with
    custodians := (Table.mapVal (fun e => { e with mask := e.mask &&& ~~~(bit64 m) }) h.custodians).filter (fun e => e.2.mask != 0) }

/-- What the Hold Unit does at the completion of a HOLD sweep of a matter, given the requests that remain (R121). -/
def Hold.sweepDone (h : Hold) (r : SweepReq) (rest : List SweepReq) : Hold :=
  match r with
  | .hold m =>
    match h.matter m with
    | .lifting _ => if r ∈ rest then h else h.free m
    | _ => h
  | _ => h

/-- The completion of the running sweep, an audit slot being free (R114); the record's limit takes 4 bytes (log entry 13). -/
def State.completeSweep (s : State) (r : SweepReq) (u : SweepRun) : State :=
  let s1 := (s.append .sweepDone (Fld.sweepReq r ++ [Fld.u32 u.limit, Fld.u32 u.changed])).raise .sweepDone
  let rest := s1.index.sweeps.tail
  { s1 with
    index := Index.startSweep { s1.index with sweeps := rest, run := none }
    hold := s1.hold.sweepDone r rest }

end Sys2Proof.Machine
end

