-- ==== Sys2Proof/Machine/Disposition.lean ====
section
/-! DEFINITION. Chapter 7: due processing (R137 to R139), release (R145, R147) and the disposal event (R149 to R152). -/

namespace Sys2Proof.Machine

/-- The archive day has advanced: the Disposition Unit is signalled, which in AUTO mode is an AUTO release opportunity
(R147 (1)); due processing is taken by its own event. -/
def State.signalDay (s : State) : State :=
  { s with dispo := { s.dispo with opportunity := s.dispo.opportunity || s.settings.auto } }

/-- Due processing of item `i`, the head of the due set (R138). The queue it fills sets the due pause (R139, log entry 29). -/
def State.dueItem (s : State) (i : Nat) : State :=
  match s.index.item i with
  | some r =>
    match r.body with
    | .live l =>
      let x := s.index.uncalendar r.expiry i
      let l' := s.hold.sync r l
      if l'.holdMask = 0 then
        let q := s.dispo.queue ++ [{ item := i, day := s.today }]
        let t : State := { s with
          index := x.setItem i { r with body := .live { l' with state := .eligible } }
          dispo := { s.dispo with queue := q, duePause := decide (q.length = Config.dispoQueue) } }
        t.raiseIf s.dispo.queue.isEmpty .dispoReady
      else { s with index := x.setItem i { r with body := .live { l' with state := .expiredHeld } } }
    | .disposed _ => s
  | none => s

/-- The state of an item changes at a release (R145 (1)). -/
def Index.markReleased (x : Index) (i : Nat) : Index :=
  match x.item i with
  | some r =>
    match r.body with
    | .live l => x.setItem i { r with body := .live { l with state := .released } }
    | .disposed _ => x
  | none => x

/-- The subject of a DISPO_RELEASED record: cause, size, first and last item, their queued days, and the requested count for a
DISPO_RELEASE (R145 (3)). -/
def releaseFields (auto : Bool) (es : List QueueEntry) (asked : Option Nat) : List Field :=
  let f := es.headD { item := 0, day := 0 }
  let l := es.getLastD { item := 0, day := 0 }
  [Fld.yes auto, Fld.u32 es.length, Fld.u24 f.item, Fld.u24 l.item, Fld.u32 f.day, Fld.u32 l.day] ++ Fld.opt 4 asked

/-- An accepted release of the first `n` entries of the queue (R145). The AUTO wait ends: the list is then not empty, or the
waiting release has been made (R147). -/
def State.release (s : State) (auto : Bool) (n : Nat) (asked : Option Nat) : State :=
  let es := s.dispo.queue.take n
  let t : State := { s with
    index := (es.map (·.item)).foldl Index.markReleased s.index
    dispo := { s.dispo with
      queue := s.dispo.queue.drop n
      list := s.dispo.list ++ es.map (·.item)
      batch := some { auto, second := s.clock.counter, size := es.length, disposed := 0, held := 0, retained := 0 }
      duePause := false
      autoWait := false } }
  t.append .dispoReleased (releaseFields auto es asked)

/-- The length of the grace run: the entries from the head, at most 256, whose queued day plus the grace is no later than
today (R147). -/
def State.graceRun (s : State) : Nat :=
  min (s.dispo.queue.takeWhile (fun e => decide (e.day + s.settings.grace ≤ s.today))).length Config.disposalList

/-- One class of a disposed item: its in-use count decreases by 1 (R80). -/
def Policy.dropClass (p : Policy) (c : Nat) : Policy :=
  let r := p.cls c
  p.setCls c { r with inUse := r.inUse - 1 }

/-- The state after one slot of a disposed item has given up its ref, with the number of entries freed so far (R151 (1)). -/
def State.dropSlotRef (t : State × Nat) (ref : EntryRef) : State × Nat :=
  let s1 : State := { t.1 with segs := t.1.segs.dropRef ref }
  let s2 := s1.freeIdle ref
  (s2, t.2 + (if (s1.segs.entry ref).isSome ∧ (s2.segs.entry ref).isNone then 1 else 0))

/-- The head of the disposal list leaves it and the batch record counts the outcome; a list left empty raises DISPOSAL_DONE and
in AUTO mode gives an AUTO release opportunity (R151 (4), R152, R147 (2)). -/
def State.leaveList (s : State) (count : Batch → Batch) : State :=
  let list := s.dispo.list.tail
  let done := list.isEmpty
  let t : State := { s with dispo := { s.dispo with
    list := list
    batch := s.dispo.batch.map count
    opportunity := s.dispo.opportunity || (done && s.settings.auto) } }
  t.raiseIf done .disposalDone

/-- A disposal event whose check passes (R151). The item leaves the list after its record, so any AUDIT_HALF or AUDIT_FULL of the
ITEM_DISPOSED record is raised before DISPOSAL_DONE, an order the spec does not give (DESIGN CHOICE, log entry 26). -/
def State.disposeItem (s : State) (i : Nat) (r : ItemRec) (l : LiveItem) : State :=
  let f := (l.segs.map (·.ref)).foldl State.dropSlotRef (s, 0)
  let t : State := { f.1 with
    policy := r.classes.foldl Policy.dropClass f.1.policy
    index := f.1.index.setItem i { r with body := .disposed s.clock.counter } }
  (t.append .itemDisposed
    ([Fld.u24 i, Fld.u8 r.domain, Fld.u64 r.commitSecond] ++ Fld.classSet r.classes ++ Fld.expiry r.expiry ++
      [Fld.u64 s.clock.counter, Fld.digest r.fingerprint, Fld.remarks r.remarks, Fld.u32 f.2])).leaveList
    (fun b => { b with disposed := b.disposed + 1 })

/-- The disposal event of item `i`, the head of the disposal list (R150 to R152). -/
def State.disposalOf (s : State) (i : Nat) : State :=
  match s.index.item i with
  | some r =>
    match r.body with
    | .live l =>
      if r.expiry.laterThan s.today then
        State.leaveList
          { s with index := (s.index.setItem i { r with body := .live { l with state := .retained } }).toCalendar r.expiry i }
          (fun b => { b with retained := b.retained + 1 })
      else
        let l' := s.hold.sync r l
        if l'.holdMask = 0 then s.disposeItem i r l'
        else
          State.leaveList { s with index := s.index.setItem i { r with body := .live { l' with state := .expiredHeld } } }
            (fun b => { b with held := b.held + 1 })
    | .disposed _ => s
  | none => s

end Sys2Proof.Machine
end

