-- ==== Sys2Proof/Machine/Reads.lean ====
section
/-! DEFINITION. Page reads and the requests that wait on them: SEG_READ (R70), SEG_VERIFY (R72) and AUDIT_READ (R187). -/

namespace Sys2Proof.Machine

/-- What comes of a page read: its bytes on PASS, a failure, or OFFLINE (R164). -/
inductive ReadResult where
  | pass (bytes : List Byte)
  | fail
  | offline
deriving DecidableEq, Repr

/-- The item is a tombstone (R98). -/
def Index.isGone (x : Index) (i : Nat) : Bool :=
  match x.item i with
  | some r => match r.body with | .disposed _ => true | .live _ => false
  | none => false

/-- What a page read leaves of its part of a SEG_READ. -/
def ReadResult.part : ReadResult → ReadPart
  | .pass bs => .passed bs
  | .fail => .failed
  | .offline => .offline

/-- The bytes of the passed parts, in order. -/
def partBytes (ps : List ReadPart) : List Byte := (ps.map (fun p => match p with | .passed bs => bs | _ => [])).flatten

/-- The reply of a SEG_READ whose page reads have all completed (R70). The bytes stand alone, with no number of
bytes before them (log entry 13). -/
def State.segReadReply (s : State) (q : SegRead) : State :=
  if s.index.isGone q.item then s.reply q.tag Code.segRead .gone
  else if q.parts.any (fun p => decide (p = .offline)) then s.reply q.tag Code.segRead .offline
  else if q.parts.any (fun p => decide (p = .failed)) then s.reply q.tag Code.segRead .mediaError
  else s.reply q.tag Code.segRead .ok (Fld.bytes (((partBytes q.parts).drop q.skip).take q.count))

/-- One page read of a SEG_READ has completed (R70). -/
def State.segReadPart (s : State) (id part : Nat) (res : ReadResult) : State :=
  match s.segs.reads.find? (fun q => q.id == id) with
  | none => s
  | some q =>
    let q' := { q with parts := q.parts.set part res.part }
    if q'.parts.any (fun p => decide (p = .pending)) then
      { s with segs := { s.segs with reads := s.segs.reads.map (fun r => if r.id == id then q' else r) } }
    else State.segReadReply { s with segs := { s.segs with reads := s.segs.reads.filter (fun r => r.id != id) } } q'

/-- A verify ends with its reply; its place and digest state are given back (R72). -/
def State.verifyEnd (s : State) (v : Verify) (st : Status) (p : List Field) : State :=
  State.reply
    { s with segs := { s.segs with
        verifies := s.segs.verifies.filter (fun w => w.place != v.place)
        verifyWait := s.segs.verifyWait.filter (fun n => n != v.place) } }
    v.tag Code.segVerify st p

/-- Write a verify in flight. -/
def Segs.setVerify (t : Segs) (v : Verify) : Segs :=
  { t with verifies := t.verifies.map (fun w => if w.place == v.place then v else w) }

/-- A verify presents the read of its next page: answered OFFLINE at once on an OFFLINE channel, its item disposed of or not (log entry
27); where the READ queue is full it waits (R72, R164, log entry 21). -/
def State.verifyRead (s : State) (v : Verify) : State :=
  let c := s.media.get v.loc.chan
  if c.state = .offline then s.verifyEnd v .offline []
  else if 0 < c.readRoom then
    let w := { v with waiting := false }
    { s with
      segs := { s.segs.setVerify w with verifyWait := s.segs.verifyWait.filter (fun n => n != v.place) }
      media := s.media.set v.loc.chan
        (c.pushRead { zone := v.loc.zone, page := v.loc.first + v.next, who := .verify v.place }) }
  else
    let w := { v with waiting := true }
    { s with segs := { s.segs.setVerify w with verifyWait := s.segs.verifyWait ++ [v.place] } }

/-- One page read of a verify has completed (R72), a read answered OFFLINE among them: GONE goes before what it brought (log entry 27). -/
def State.verifyPart (s : State) (place : Nat) (res : ReadResult) : State :=
  match s.segs.verifies.find? (fun v => v.place == place) with
  | none => s
  | some v =>
    if s.index.isGone v.item then s.verifyEnd v .gone []
    else
      match res with
      | .offline => s.verifyEnd v .offline []
      | .fail => s.verifyEnd v .mediaError [Fld.u16 (v.loc.first + v.next)]
      | .pass bs =>
        let sha := v.sha.update (bs.take (min Config.pageBytes (v.length - v.next * Config.pageBytes)))
        if v.next + 1 = v.loc.count then
          let d := sha.finish
          s.verifyEnd v (if d = v.digest then .matched else .mismatch) [Fld.digest d]
        else s.verifyRead { v with sha, next := v.next + 1 }

/-- The payload of an AUDIT_READ reply of status OK: the number of records, whether they came from flash, the records (R187). -/
def auditReadFields (n : Nat) (flash : Bool) (bytes : List Byte) : List Field :=
  [Fld.u16 n, Fld.yes flash] ++ Fld.bytes bytes

/-- The page read of an AUDIT_READ has completed (R187). -/
def State.auditPart (s : State) (tag : Byte) (first count pageFirst pageCount : Nat) (res : ReadResult) : State :=
  match res with
  | .pass bs =>
    let n := min count (pageFirst + pageCount - first)
    s.reply tag Code.auditRead .ok
      (auditReadFields n true ((bs.drop ((first - pageFirst) * Config.recordBytes)).take (n * Config.recordBytes)))
  | .fail => s.reply tag Code.auditRead .mediaError
  | .offline => s.reply tag Code.auditRead .offline

/-- A page read has completed: its result goes to its requester, and is discarded where that has gone (R164). The
bytes are the module's (log entry 16). -/
def State.finishRead (s : State) (who : Requester) (res : ReadResult) : State :=
  match who with
  | .none => s
  | .segRead id part => s.segReadPart id part res
  | .verify place => s.verifyPart place res
  | .audit tag first count pageFirst pageCount => s.auditPart tag first count pageFirst pageCount res

end Sys2Proof.Machine
end

