-- ==== Sys2Proof/Machine/Failures.lean ====
section
/-! DEFINITION. Fencing, timeouts and the end of a probe (sections 8.7 and 8.8), and the results of audit pages (R185). -/

namespace Sys2Proof.Machine

/-- Write one channel of the part. -/
def State.setChan (s : State) (i : ChanNo) (c : Channel) : State := { s with media := s.media.set i c }

/-- A page belongs to an upload. -/
def Upload.has (u : Upload) (zone page : Nat) : Bool :=
  u.zone == zone && decide (u.first ≤ page ∧ page < u.first + u.count)

/-- The order in which a fence fails the uploads of a channel: by oldest page in the INGEST queue, then those with no page
queued in order of placement (R171 (3)). -/
def Channel.uploadOrder (c : Channel) : List Upload :=
  (c.ingestQ.filterMap (fun p => c.uploads.find? (fun u => u.has p.zone p.page)) ++ c.uploads).eraseDups

/-- Steps (1) to (4) of R171 for a channel that leaves IN_SERVICE for the state given: the mark and the owed record, the open
zones, the uploads, the AUDIT queue. Its BLANK zones leave F with its state (step (5)). -/
def State.fenceSteps (s : State) (i : ChanNo) (cause : FenceCause) (st : ChanState) : State :=
  let c := s.media.get i
  let f : Channel := { c with state := st, markFenced := true, fenceOwed := some cause }
  let s1 := s.setChan i f.closeIngest.closeAudit
  let s2 := (s1.media.get i).uploadOrder.foldl (fun t u => t.uploadFails i u) s1
  s2.withStore (s2.store.handBack i)

/-- A channel is FENCED: the steps of R171 with the CHANNEL_FENCED notice. -/
def State.fence (s : State) (i : ChanNo) : State := (s.fenceSteps i .programFails .fenced).raise .channelFenced

/-- A PROGRAM of an ingest or audit page has failed: the consecutive-fail count increases by 1, and at 4 an IN_SERVICE channel
is fenced (R170, R171). -/
def State.countFail (s : State) (i : ChanNo) : State :=
  let c := s.media.get i
  let t := s.setChan i { c with fails := c.fails + 1 }
  if c.fails + 1 = Config.failMax ∧ c.state = .inService then t.fence i else t

/-- An audit page's PASS: its records leave the buffer and a page map entry is appended (R185 (1), R186). -/
def Audit.passed (a : Audit) (p : AuditPage) (i : ChanNo) (zone page : Nat) : Audit :=
  { a with
    buffer := a.buffer.filter (fun r => !decide (p.first ≤ r.seq ∧ r.seq < p.first + p.count))
    map := a.map ++ [{ first := p.first, count := p.count, chan := i, zone, page }] }

/-! ### Probes -/

/-- The bytes of a probe's test page (R175 (2)). -/
def probePage (i : ChanNo) (page : Nat) : List Byte :=
  (List.range Config.pageBytes).map (fun j => BitVec.ofNat 8 (j + page + 64 * i.val))

/-- The probe's PROGRAM is issued at the probe zone's write point (R175 (2)). -/
def Channel.probeProgram (c : Channel) : Channel :=
  { c with op := some (.probeProgram c.probeWp), probeWp := c.probeWp + 1 }

/-- The channel has a probe in flight. -/
def Channel.probing (c : Channel) : Bool :=
  match c.probe with
  | some p => decide (p.stage = .inFlight)
  | none => false

/-- A probe ends with its delayed reply (R176). -/
def State.probeEnd (s : State) (i : ChanNo) (st : Status) : State :=
  let c := s.media.get i
  match c.probe with
  | some p => (s.setChan i { c with probe := none }).reply p.tag Code.channelProbe st
  | none => s

/-- An OFFLINE channel whose module has answered a probe becomes FENCED (R176). -/
def Channel.answered (c : Channel) : Channel := if c.state = .offline then { c with state := .fenced } else c

/-- An operation of a probe has completed with FAIL: MEDIA_ERROR, and the module has answered (R176 (3)). A probe that a reset
has discarded ends nothing. -/
def State.probeFail (s : State) (i : ChanNo) : State :=
  let c := s.media.get i
  let idle : Channel := { c with op := none }
  if c.probing then (s.setChan i idle.answered).probeEnd i .mediaError else s.setChan i idle

/-- The probe's page has been read back: a match waits for its restoration, a difference ends the probe with MISMATCH
(R176 (1), (2)). -/
def State.probeReadBack (s : State) (i : ChanNo) (page : Nat) (bytes : List Byte) : State :=
  let c := s.media.get i
  let idle : Channel := { c with op := none }
  if c.probing then
    if bytes = probePage i page then
      let won : Channel := { idle.answered with probe := c.probe.map (fun p => { p with stage := .restoring }) }
      s.setChan i won
    else (s.setChan i idle.answered).probeEnd i .mismatch
  else s.setChan i idle

/-! ### Timeouts -/

/-- The reads of a channel that becomes OFFLINE, the one in flight first, as it is the oldest (R173 (1) gives no order of their replies:
DESIGN CHOICE, log entry 42). -/
def Channel.allReads (c : Channel) : List PageRead :=
  (match c.op with | some (.read r) => [r] | _ => []) ++ c.readQ

/-- An erase in progress is abandoned: its zone returns to the head of the RECLAIM queue (R165, R173 (2)). -/
def Channel.abandonErase (c : Channel) : Channel :=
  match c.erase with
  | some e => { c with erase := none, reclaimQ := e.zone :: c.reclaimQ }
  | none => c

/-- A probe in flight, or waiting for its restoration, ends with OFFLINE (R176 (1), (4)). -/
def State.probeOffline (s : State) (i : ChanNo) : State :=
  match (s.media.get i).probe with
  | some p => if p.stage = .waiting then s else s.probeEnd i .offline
  | none => s

/-- An operation of a channel has timed out: the channel becomes OFFLINE (R173). The delayed replies are formed first
(R194). Log entries 22, 24, 26 and, on the order of those replies, 42. -/
def State.goOffline (s : State) (i : ChanNo) : State :=
  let c := s.media.get i
  let auditQ :=
    match c.op with
    | some (.programAudit _ _ p true) => p :: c.auditQ
    | _ => c.auditQ
  let f : Channel := { c with op := none, askOwed := false, readQ := [], auditQ, state := .offline }
  let s1 := s.setChan i f.abandonErase
  let s2 := c.allReads.foldl (fun t r => t.finishRead r.who .offline) s1
  let s3 := s2.probeOffline i
  let s4 := if c.state = .inService then s3.fenceSteps i .timeout .offline else s3
  s4.raiseIf (decide (c.state ≠ .offline)) .channelOffline

end Sys2Proof.Machine
end

