-- ==== Sys2Proof/Machine/TimeBase.lean ====
section
/-! DEFINITION. What an elapsed second of the backed time base does (R1, R14), the day rollover (R16, R17) and the loss of the
time base (R5). -/

namespace Sys2Proof.Machine

/-- Power stands: the part is on, or starting up. -/
def State.powered (s : State) : Bool := decide (s.link.power ≠ .off)

/-- A day rollover taken while powered (R16). -/
def State.rollover (s : State) : State :=
  let t : State := { s with clock := { s.clock with used := 0, hwm := s.clock.counter } }
  (t.raise .dayRollover).signalDay

/-- A day rollover reached while unpowered (R17). -/
def State.rolloverDark (s : State) : State := { s with clock := { s.clock with used := 0 } }

/-- The counter has reached a multiple of 86,400. -/
def State.atMidnight (s : State) : Bool := decide (s.clock.counter % Config.daySeconds = 0)

/-- One second of RUNNING: the counter increases by 1 below the last archive second, and a day rollover may follow (R1). -/
def State.runSecond (s : State) : State :=
  if s.clock.counter < Config.secondMax then
    let t : State := { s with clock := { s.clock with counter := s.clock.counter + 1 } }
    if t.atMidnight then (if s.powered then t.rollover else t.rolloverDark) else t
  else s

/-- One second of HELD: the hold remainder decreases by 1, and at 0 the clock becomes RUNNING (R14). -/
def State.holdSecond (s : State) : State :=
  let h := s.clock.hold - 1
  { s with clock := { s.clock with hold := h, state := if h = 0 then .running else .held } }

/-- One second of the part's timers, which count while it is powered (R2). -/
def State.timerSecond (s : State) : State := { s with timer := if s.powered then s.timer + 1 else s.timer }

/-- The time base marks elapsed seconds: always while powered, and unpowered for as long as it stays valid (R1). -/
def State.marks (s : State) : Bool := s.powered || !s.clock.lost

/-- What one elapsed second does (R1). The mark restarts the sub-second phase. -/
def State.elapse (s : State) : State :=
  let t : State := { s with clock := { s.clock with phase := 0 } }
  match s.clock.state with
  | .unset => t.timerSecond
  | .running => t.timerSecond.runSecond
  | .held => t.timerSecond.holdSecond

/-- The next second of a RUNNING clock is a day rollover. -/
def State.rolloverNext (s : State) : Bool :=
  decide (s.clock.state = .running ∧ s.clock.counter < Config.secondMax ∧ (s.clock.counter + 1) % Config.daySeconds = 0)

/-- The clock enters UNSET, and the indicator is set valid again (R4 (2), R5). -/
def Clock.unset (c : Clock) : Clock := { c with state := .unset, hold := 0, used := 0, lost := false }

/-- The time base reports loss: while powered by R5; while unpowered its indicator will report it at power-on (R4,
log entry 31). -/
def State.lose (s : State) : State :=
  if s.powered then
    let c : Clock := { s.clock with hwm := s.clock.counter }
    let t : State := { s with clock := c.unset }
    t.raise .clockUnset
  else { s with clock := { s.clock with lost := true } }

end Sys2Proof.Machine
end

