-- ==== Sys2Proof/Machine/StartUp.lean ====
section
/-! DEFINITION. The start-up of every block at power-on and at link reset (R203): what is volatile is lost (R49, R73, R136, R155,
R190), the clock examines the time base (R4, R6), the modules are asked to identify themselves (R178), and what follows once
they have answered. Log entry 2 says how the wait for the modules is modelled. -/

namespace Sys2Proof.Machine

/-! ### What a reset discards -/

/-- An entry without its volatile parts (R73 (1)). -/
def SegEntry.calm (e : SegEntry) : SegEntry := { e with claims := 0, owner := none, waiters := [] }

/-- The Segment Table without its volatile parts (R73 (1), (4)). -/
def Segs.calm (t : Segs) : Segs where
  buckets := Table.mapVal SegEntry.calm t.buckets
  overflow := Table.mapVal SegEntry.calm t.overflow
  reads := []
  nextRead := 0
  verifies := []
  verifyWait := []

/-- An operation that a link reset has passed over: its page concerns no upload and no waiting page, its read no request
(R178 (2)). -/
def Op.orphan : Op → Op
  | .programIngest p _ => .programIngest p false
  | .programAudit z n p _ => .programAudit z n p false
  | .read r => .read { r with who := .none }
  | o => o

/-- The module is at an erase: it runs, or is being resumed. -/
def Op.erasing : Op → Bool
  | .erase _ => true
  | .resume => true
  | _ => false

/-- A channel without its volatile parts (R155, R178 (3)); at a link reset its operation and its erase go on (R178 (2)),
the erase with its suspend-failed mark (log entry 37); a module that is at it is asked at its end (R178 (1), log entry 30). -/
def Channel.calm (warm : Bool) (c : Channel) : Channel :=
  { c with
    filling := []
    auditQ := []
    ingestQ := []
    readQ := []
    uploads := []
    fails := 0
    probe := none
    op := if warm then c.op.map Op.orphan else none
    erase := if warm then c.erase.map (fun e => { e with count := 0, askAfter := c.op.any Op.erasing }) else none
    askOwed := false }

/-- The part without its volatile state (R49, R73, R136, R155, R190, R197); `warm` keeps the modules' operations. -/
def State.calm (warm : Bool) (s : State) : State :=
  { s with
    ingest := { ctxs := [], ready := [] }
    segs := s.segs.calm
    dispo := { s.dispo with duePause := false, autoWait := false, opportunity := false }
    media :=
      { c0 := s.media.c0.calm warm
        c1 := s.media.c1.calm warm
        c2 := s.media.c2.calm warm
        c3 := s.media.c3.calm warm
        last := 3 }
    audit := { s.audit with drain := none, held := [] }
    link := { s.link with flags := 0, tx := [], resetTaken := false } }

/-! ### The clock's start-up -/

/-- The time base is taken as intact (R4). -/
def Clock.intact (c : Clock) : Bool := !c.lost && decide (c.hwm ≤ c.counter)

/-- The clock's start-up at a power-on (R4). -/
def State.clockPowerOn (s : State) : State :=
  if s.clock.intact then
    let late := decide (dayOf s.clock.hwm < s.today)
    let t : State := { s with clock := { s.clock with hwm := s.clock.counter } }
    if late then (t.raise .dayRollover).signalDay else t
  else
    let c : Clock := { s.clock with counter := s.clock.hwm }
    let t : State := { s with clock := c.unset }
    t.raise .clockUnset

/-- The clock's start-up at a link reset (R6). -/
def State.clockLinkReset (s : State) : State := s.raiseIf (decide (s.clock.state = .unset)) .clockUnset

/-! ### The Segment Table's and the Media Controller's start-up -/

/-- An entry that start-up keeps: STORED and either pinned or with refs (R73). -/
def SegEntry.kept (e : SegEntry) : Bool := e.stored && (e.pinned || decide (e.refs ≠ 0))

/-- The Segment Table's start-up: INBOUND entries and STORED entries that nothing references become FREE, and their pages
become dead (R73 (2), (3)). -/
def State.segsStartUp (s : State) : State :=
  let freed := s.segs.all.filter (fun e => !e.2.kept)
  { s with
    segs := { s.segs with
      buckets := s.segs.buckets.filter (fun e => e.2.kept)
      overflow := s.segs.overflow.filter (fun e => e.2.kept) }
    media := freed.foldl (fun m e => m.deadPages e.2.loc) s.media }

/-- A zone at start-up: INGEST_OPEN becomes FULL, and FULL with a live count of 0 becomes RECLAIMING (R178 (4), (5)). -/
def Zone.restart (z : Zone) : Zone :=
  let st : ZoneState := if z.state = .ingestOpen then .full else z.state
  { z with state := if st = .full ∧ z.live = 0 then .reclaiming else st }

/-- The zone of an erase that goes on across a link reset. -/
def Channel.erasing (c : Channel) : Option Nat := c.erase.map (·.zone)

/-- The RECLAIM queue of a start-up: every RECLAIMING zone in ascending order, but one whose erase goes on (R178 (5)). -/
def Channel.reclaimable (c : Channel) : List Nat :=
  (c.zones.filter (fun e => decide (e.2.state = .reclaiming ∧ c.erasing ≠ some e.1))).map (·.1)

/-- A channel at start-up: the state of its mark, its zones, its RECLAIM queue, and IDENTIFY where the module is idle; a module
whose operation is in flight is asked when that completes (R178). -/
def Channel.restart (c : Channel) : Channel :=
  let z : Channel := { c with zones := Table.mapVal Zone.restart c.zones }
  { z with
    state := if c.markFenced then .fenced else .inService
    reclaimQ := z.reclaimable
    op := if c.op.isSome then c.op else some .identify
    askOwed := c.op.isSome }

/-- The channels whose module start-up waits for. -/
def Media.asked (m : Media) : List ChanNo := chanNos.filter (fun i => decide ((m.get i).op = some .identify ∧ (m.get i).askOwed = false))

/-! ### The end of start-up -/

/-- The subject of a START_UP record (R189). -/
def StartUpOwed.fields (o : StartUpOwed) : List Field :=
  [Fld.u8 (match o.cause with | .powerOn => 0 | .linkReset => 1), Fld.yes o.intact, Fld.clockState o.clock, Fld.u64 o.second]

/-- The owed START_UP record is appended where a slot is free (R189). -/
def State.payStartUp (s : State) : State :=
  match s.audit.startOwed with
  | some o =>
    if s.slotFree then
      let t : State := { s with audit := { s.audit with startOwed := none } }
      t.append .startUp o.fields
    else s
  | none => s

/-- The GENESIS record of a blank part (R189). -/
def State.genesis (s : State) : State :=
  if s.audit.counter = 0 ∧ s.audit.buffer = [] ∧ s.audit.map = [] then
    s.append .genesis [Fld.u16 Config.revision, Fld.u64 0]
  else s

/-- Every channel begins with the credits of a new round (R178 (3), log entry 18). -/
def State.freshCredits (s : State) : State :=
  let k := roundCredits s.settings s.media
  { s with media :=
    { s.media with
      c0 := { s.media.c0 with credits := k }
      c1 := { s.media.c1 with credits := k }
      c2 := { s.media.c2 with credits := k }
      c3 := { s.media.c3 with credits := k } } }

/-- Some channel is in a state. -/
def Media.anyIn (m : Media) (st : ChanState) : Bool := chanNos.any (fun i => decide ((m.get i).state = st))

/-- The notices of the Media Controller's start-up (R178 (6)). -/
def State.mediaNotices (s : State) : State :=
  let s1 := s.raiseIf (decide (s.media.freeZones < s.settings.throttle)) .spaceLow
  let s2 := s1.raiseIf (decide (s.media.freeZones ≤ s.settings.reserve)) .spaceReserve
  let s3 := s2.raiseIf (s.media.anyIn .fenced) .channelFenced
  s3.raiseIf (s.media.anyIn .offline) .channelOffline

/-- Every record of the buffer is taken as appended now (R190 (2)). -/
def Audit.restamp (now : Nat) (a : Audit) : Audit := { a with buffer := a.buffer.map (fun r => { r with since := now }) }

/-- The Audit Unit's start-up: the records' waits begin, the drain channel is chosen and pages are presented, the notices are
raised, and GENESIS and the START_UP record follow (R190, R189). -/
def State.auditStartUp (s : State) : State :=
  let v : State := { s with audit := s.audit.restamp s.timer }
  let t := v.withStore (v.store.present s.timer)
  let u := (t.raiseIf (decide (Config.auditHalf ≤ s.audit.buffer.length)) .auditHalf).raiseIf
    (decide (s.audit.buffer.length = Config.auditBuffer)) .auditFull
  u.genesis.payStartUp

/-- The Disposition Unit's start-up (R154). -/
def State.dispoStartUp (s : State) : State :=
  let t : State := { s with dispo := { s.dispo with opportunity := s.dispo.opportunity || s.settings.auto } }
  t.raiseIf (!s.dispo.queue.isEmpty) .dispoReady

/-- Start-up ends, every module asked having answered or not: the remaining blocks start and requests are taken again (R178,
R190, R115, R154, R203). The notices stand in the order in which R203 (2) lists the owners (DEDUCED, log entry 26). -/
def State.finishStartUp (s : State) : State :=
  let t := s.freshCredits.mediaNotices.auditStartUp
  let u := (State.dispoStartUp { t with index := t.index.startSweep })
  let v : State := { u with link := { u.link with power := .on } }
  State.closeEvent v v

/-- The start-up of a part, up to the answers of its modules: the clock first, then the Segment Table and the Media Controller,
with the START_UP record owed (R203, R189). -/
def State.beginStartUp (cause : StartCause) (intact : Bool) (s : State) : State :=
  let t := s.segsStartUp
  let m := t.media
  let m' : Media := { m with c0 := m.c0.restart, c1 := m.c1.restart, c2 := m.c2.restart, c3 := m.c3.restart }
  let awaited := m'.asked
  let u : State := { t with
    media := m'
    audit := { t.audit with startOwed := some { cause, intact, clock := t.clock.state, second := t.clock.counter } }
    link := { t.link with power := .starting awaited cause } }
  if awaited = [] then u.finishStartUp else u

/-- A power-on (R4, R203). -/
def State.powerUp (s : State) : State :=
  let c := s.calm false
  State.beginStartUp .powerOn c.clock.intact c.clockPowerOn

/-- The link reset is applied (R203). What its START_UP record says of the time base is a free value (log entry 3). -/
def State.linkResetNow (s : State) : State :=
  let c := s.calm true
  State.beginStartUp .linkReset (Config.linkResetIntact c.audit.counter) c.clockLinkReset

/-- The module of an awaited channel does not answer: OFFLINE, the AUDIT_OPEN zone closed, the mark FENCED with the record owed
where it was IN_SERVICE (R178 (1)); a suspended erase is abandoned (R173 (2)). -/
def Channel.noAnswer (c : Channel) : Channel :=
  let f : Channel := { c with
    state := .offline
    op := none
    fenceOwed := if c.markFenced then c.fenceOwed else some .timeout
    markFenced := true }
  f.abandonErase.closeAudit

/-- An awaited channel's module has answered, or not; start-up ends with the last of them (R178). -/
def State.identified (s : State) (awaited : List ChanNo) (cause : StartCause) (i : ChanNo) (pass : Bool) : State :=
  let c := s.media.get i
  let t := s.setChan i (if pass then { c with op := none } else c.noAnswer)
  let rest := awaited.filter (fun j => j != i)
  let u : State := { t with link := { t.link with power := .starting rest cause } }
  if rest = [] then u.finishStartUp else u

end Sys2Proof.Machine
end

