-- ==== Sys2Proof/Machine/IngestCmds.lean ====
section
/-! DEFINITION. The meanings of the Ingest Unit's commands (chapter 2): ITEM_OPEN, SEG_DECLARE, SEG_DATA, ITEM_COMMIT, ITEM_ABORT,
the idle timeout and the deferred commit. -/

namespace Sys2Proof.Machine

/-- The end of an event that may move contexts and media: deadlines are settled (R45), then the media and the drain. -/
def State.finish (s0 t : State) : State := State.closeEvent s0 t.retimeAll

/-! ### ITEM_OPEN -/

/-- Check (2) of TABLE 2-2. -/
def badItemOpen (q : ItemOpen) : Bool :=
  decide (q.parties.length = 0 ∨ Config.partiesMax < q.parties.length ∨ q.segCount = 0 ∨ Config.slotsMax < q.segCount ∨
    Config.domains ≤ q.domain)

/-- The envelope's event key is absent from the event key table. -/
def Index.lacks (x : Index) (k : Option Key) : Bool :=
  match k with
  | some k => (x.event k).isNone
  | none => false

/-- The key an ITEM_OPEN enters where it is absent: AWAITING with an empty list (R27). -/
def Index.enter (x : Index) (k : Option Key) : Index :=
  match k with
  | some k => if (x.event k).isNone then x.setEvent k { posted := none, items := [] } else x
  | none => x

/-- The context an ITEM_OPEN makes of context `c` (R27, R24). -/
def State.opened (s : State) (c : Nat) (q : ItemOpen) : Ctx where
  gen := ((s.ingest.ctx c).gen + 1) % 65536
  body := some {
    committing := false
    env := { domain := q.domain, parties := q.parties, sent := q.sent, tags := q.tags, event := q.event, segCount := q.segCount }
    group := (s.policy.domain q.domain).group
    slots := List.replicate q.segCount .empty
    deadline := .running (s.timer + s.settings.timeout) }

/-- The first refusal of TABLE 2-2 after the checks of clock and fields, or the context taken (R26, R27). -/
def State.openCheck (s : State) (q : ItemOpen) : Status ⊕ Nat :=
  if (s.policy.domain q.domain).active = false then .inl .domainUnused
  else if Config.itemMax ≤ (s.index.next - 1) + s.ingest.openCount then .inl .indexFull
  else if s.index.lacks q.event ∧ Config.eventKeys ≤ s.index.events.length then .inl .eventTableFull
  else
    match s.ingest.lowestFree with
    | none => .inl .noContext
    | some c => .inr c

/-- ITEM_OPEN (R26, R27); a malformed payload is refused in check (2) (R192). -/
def State.itemOpen (s : State) (tag : Byte) (r : Req ItemOpen) : State :=
  if s.clock.state = .unset then s.reply tag Code.itemOpen .clockUnset
  else
    match r with
    | .malformed => s.reply tag Code.itemOpen .badField
    | .fields q =>
      if badItemOpen q then s.reply tag Code.itemOpen .badField
      else
        match s.openCheck q with
        | .inl st => s.reply tag Code.itemOpen st
        | .inr c =>
          let n := s.opened c q
          let t : State := { s with ingest := s.ingest.setCtx c n, index := s.index.enter q.event }
          t.reply tag Code.itemOpen .ok (Fld.ctxRef c n.gen)

/-- ITEM_OPEN (R26). -/
def execItemOpen (tag : Byte) (r : Req ItemOpen) (s : State) : Out :=
  if s.taking then .next (s.itemOpen tag r) else .next s

/-! ### SEG_DECLARE -/

/-- The Segment Table's outcome of a declaration and its effect on the table, the media and the slot (TABLE 3-2, R29). -/
def State.declare (s : State) (w : SlotRef) (digest : Digest) (length group : Nat) : State × Status :=
  match s.segs.lookup digest length group with
  | some ref =>
    match s.segs.entry ref with
    | some e =>
      let d : Decl := { digest, length, ref }
      if e.stored then
        if e.claims < Config.claimsMax then
          let t : State := { s with segs := s.segs.put ref { e with claims := e.claims + 1 } }
          (t.setSlot w (.ready d), .known)
        else (s, .busy)
      else if e.waiters.length < Config.waitersMax then
        let t : State := { s with segs := s.segs.put ref { e with waiters := e.waiters ++ [w] } }
        (t.setSlot w (.waiting d), .wait)
      else (s, .busy)
    | none => (s, .busy)
  | none =>
    match s.segs.freeEntry digest group with
    | none => (s, .tableFull)
    | some ref =>
      match s.media.place s.settings (pagesOf length) ref with
      | none => (s, .noSpace)
      | some (m, loc) =>
        let e : SegEntry :=
          { stored := false, digest, group, length, loc, refs := 0, pinned := false, claims := 0, owner := some w, waiters := [] }
        let t : State := { s with segs := s.segs.put ref e, media := m }
        (t.setSlot w (.sending { digest, length, ref } 0 Sha.start), .send)

/-- The checks of R28 on a named context: the refusal, if any. -/
def OpenCtx.declareCheck (o : OpenCtx) (slot length : Nat) : Option Status :=
  if o.committing then some .badContext
  else if o.env.segCount ≤ slot then some .badSlot
  else if o.slots[slot]? ≠ some .empty ∨ length = 0 ∨ Config.segMax < length then some .badField
  else none

/-- SEG_DECLARE (R28, R29). -/
def State.segDeclare (s : State) (tag : Byte) (q : SegDeclare) : State :=
  match s.ingest.named q.ref with
  | none => s.reply tag Code.segDeclare .badContext
  | some o =>
    let t := s.touch q.ref.ctx o
    match o.declareCheck q.slot q.length with
    | some st => t.reply tag Code.segDeclare st
    | none =>
      let w : SlotRef := { ctx := q.ref.ctx, gen := q.ref.gen, slot := q.slot }
      let d := t.declare w q.digest q.length o.group
      s.answer tag Code.segDeclare d.2 [] (State.finish s d.1)

/-- SEG_DECLARE (R28). -/
def execSegDeclare (tag : Byte) (r : Req SegDeclare) (s : State) : Out :=
  s.request tag Code.segDeclare r (fun q => s.segDeclare tag q)

/-! ### SEG_DATA -/

/-- The staging pages that a run of bytes would take: its pages that have none yet (R30 (6)). A page has its staging page once
its first byte has arrived. -/
def newPages (offset count : Nat) : Nat :=
  (offset + count - 1) / Config.pageBytes - offset / Config.pageBytes + (if offset % Config.pageBytes = 0 then 1 else 0)

/-- The bytes of a SEG_DATA into the staging pages of a segment placed at `l`, and the handover of a page, other than the last,
that they fill (R31). -/
def Channel.stage (c : Channel) (l : Loc) (offset : Nat) (bs : List Byte) : Channel :=
  let i := offset / Config.pageBytes
  let room := Config.pageBytes - offset % Config.pageBytes
  let c1 := c.fill l.zone (l.first + i) (bs.take room)
  let c2 := if room ≤ bs.length ∧ i + 1 < l.count then c1.handOver l.zone (l.first + i) else c1
  if room < bs.length then c2.fill l.zone (l.first + i + 1) (bs.drop room) else c2

/-- The checks of R30 on a SENDING slot whose entry lies at `l`: the refusal with its fields, if any. -/
def State.dataCheck (s : State) (d : Decl) (received : Nat) (l : Loc) (offset count : Nat) : Option (Status × List Field) :=
  if count = 0 ∨ Config.dataMax < count then some (.badField, [])
  else if offset ≠ received then some (.outOfOrder, [Fld.u32 received])
  else if d.length < offset + count then some (.badField, [])
  else if (s.media.get l.chan).stagingFree < newPages offset count then some (.busy, [])
  else none

/-- The end of a segment whose last byte has arrived (R32): the last page handed over and the slot WRITING on a match, owner
failure with the cause DIGEST on a mismatch (R33). -/
def State.segmentEnd (s : State) (w : SlotRef) (d : Decl) (l : Loc) (sha : Sha) : State × Status :=
  if sha.finish = d.digest then
    let t := s.setChan l.chan ((s.media.get l.chan).handOver l.zone (l.first + (l.count - 1)))
    (t.setSlot w (.writing d), .accepted)
  else
    let t : State := { s.emptySlot w with media := s.media.withdraw l }
    (t.ownerFailure d.ref .digest, .digestMismatch)

/-- An accepted SEG_DATA (R31, R32): the state after it, the reply's status and its fields. -/
def State.takeData (s : State) (w : SlotRef) (d : Decl) (received : Nat) (sha : Sha) (l : Loc) (bs : List Byte) :
    State × Status × List Field :=
  let n := received + bs.length
  let sha' := sha.update bs
  let t := s.setChan l.chan ((s.media.get l.chan).stage l received bs)
  if n = d.length then
    let e := t.segmentEnd w d l sha'
    (e.1, e.2, if e.2 = .accepted then [Fld.u32 n] else [Fld.u32 n, Fld.ctxState (e.1.ctxOf w)])
  else (t.setSlot w (.sending d n sha'), .accepted, [Fld.u32 n])

/-- SEG_DATA (R30). -/
def State.segData (s : State) (tag : Byte) (q : SegData) : State :=
  match s.ingest.named q.ref with
  | none => s.reply tag Code.segData .badContext
  | some o =>
    let t := s.touch q.ref.ctx o
    match o.slots[q.slot]? with
    | some (.sending d received sha) =>
      match s.segs.entry d.ref with
      | some e =>
        match t.dataCheck d received e.loc q.offset q.data.length with
        | some r => t.reply tag Code.segData r.1 r.2
        | none =>
          let w : SlotRef := { ctx := q.ref.ctx, gen := q.ref.gen, slot := q.slot }
          let a := t.takeData w d received sha e.loc q.data
          s.answer tag Code.segData a.2.1 a.2.2 (State.finish s a.1)
      | none => t.reply tag Code.segData .badSlot
    | _ => t.reply tag Code.segData .badSlot

/-- SEG_DATA (R30). -/
def execSegData (tag : Byte) (r : Req SegData) (s : State) : Out :=
  s.request tag Code.segData r (fun q => s.segData tag q)

/-! ### ITEM_COMMIT -/

/-- The number of the lowest EMPTY slot (R38 (1)). -/
def OpenCtx.lowestEmpty (o : OpenCtx) : Option Nat := o.slots.findIdx? (fun s => decide (s = .empty))

/-- A RECEIVING context becomes COMMITTING, and joins the commit-ready list where every slot is READY (R38 (3), R40). -/
def State.defer (s : State) (c : Nat) (o : OpenCtx) : State :=
  State.joinReady { s with ingest := s.ingest.setOpen c { o with committing := true } } c

/-- ITEM_COMMIT (R38). -/
def State.itemCommit (s : State) (tag : Byte) (r : CtxRef) : State :=
  match s.ingest.named r with
  | none => s.reply tag Code.itemCommit .badContext
  | some o =>
    let t := s.touch r.ctx o
    if o.committing then t.reply tag Code.itemCommit .badContext
    else
      match o.lowestEmpty with
      | some n => t.reply tag Code.itemCommit .incomplete [Fld.u16 n]
      | none =>
        if o.allReady ∧ s.slotFree then
          let k := t.commit r.ctx o
          s.answer tag Code.itemCommit .ok k.2.fields (State.finish s k.1)
        else
          s.answer tag Code.itemCommit .commitPending []
            (State.finish s (t.defer r.ctx (o.restart s.timer s.settings.timeout)))

/-- ITEM_COMMIT (R38). -/
def execItemCommit (tag : Byte) (r : Req CtxRef) (s : State) : Out :=
  s.request tag Code.itemCommit r (fun q => s.itemCommit tag q)

/-! ### ITEM_ABORT, the idle timeout and the deferred commit -/

/-- ITEM_ABORT (R44). -/
def State.itemAbort (s : State) (tag : Byte) (r : CtxRef) : State :=
  match s.ingest.named r with
  | none => s.reply tag Code.itemAbort .badContext
  | some o => s.answer tag Code.itemAbort .ok [] (State.finish s (s.giveUp r.ctx o .abort))

/-- ITEM_ABORT (R44). -/
def execItemAbort (tag : Byte) (r : Req CtxRef) (s : State) : Out :=
  s.request tag Code.itemAbort r (fun q => s.itemAbort tag q)

/-- The running idle deadline of an open context: the context's contents and the moment of the deadline. -/
def State.deadlineOf (s : State) (c : Nat) : Option (OpenCtx × Nat) :=
  match (s.ingest.ctx c).body with
  | some o => match o.deadline with | .running d => some (o, d) | .suspended => none
  | none => none

/-- A running deadline expires (R46): the timers then stand at its moment or later (log entry 7). -/
def State.contextTimeout (s : State) (c : Nat) : State :=
  match s.deadlineOf c with
  | some (o, d) =>
    let t := State.giveUp { s with timer := max s.timer d } c o .timeout
    State.finish s (t.report Code.contextEnded (Fld.ctxRef c (s.ingest.ctx c).gen ++ [Fld.u8 EndCause.timeout.code]))
  | none => s

/-- The idle deadline of a context expires (R46). -/
def execContextTimeout (ctx : Nat) (s : State) : Out := s.event (s.contextTimeout ctx)

/-- The commit condition of the commit-ready list holds: its heads commit in turn (R40). The event that makes it hold commits them first
(log entry 38). -/
def State.deferredCommit (s : State) : State :=
  if s.ingest.ready = [] ∨ s.slotFree = false then s else State.finish s s.commitReady

/-- The commit condition of the commit-ready list's head holds (R40). -/
def execDeferredCommit (s : State) : Out := s.event s.deferredCommit

end Sys2Proof.Machine
end

