-- ==== Sys2Proof/Machine/AuditCmds.lean ====
section
/-! DEFINITION. The meanings of the Audit Unit's commands (chapter 9): AUDIT_READ, AUDIT_HEAD, the 5-second wait and the owed
START_UP record. -/

namespace Sys2Proof.Machine

/-- The reply of an AUDIT_READ whose first sequence lies in the page map: a refusal, or the page read queued (R187 (4), (5)). -/
def State.auditPageRead (s : State) (tag : Byte) (q : Window) (e : MapEntry) : State :=
  let c := s.media.get e.chan
  if c.state = .offline then s.reply tag Code.auditRead .offline
  else if c.readRoom = 0 then s.reply tag Code.auditRead .busy
  else
    State.closeEvent s (s.setChan e.chan
      (c.pushRead { zone := e.zone, page := e.page, who := .audit tag q.first q.count e.first e.count }))

/-- A record of the buffer has a sequence number. -/
def Audit.inBuffer (a : Audit) (seq : Nat) : Bool := a.buffer.any (fun r => r.seq == seq)

/-- AUDIT_READ (R187). -/
def State.auditRead (s : State) (tag : Byte) (q : Window) : State :=
  if q.count = 0 ∨ 16 < q.count then s.reply tag Code.auditRead .badField
  else if s.audit.counter ≤ q.first then s.reply tag Code.auditRead .notFound
  else if s.audit.inBuffer q.first then
    let rs := s.audit.fromBuffer q.first q.count
    s.reply tag Code.auditRead .ok (auditReadFields rs.length false ((rs.map Record.bytes).flatten))
  else
    match s.audit.mapped q.first with
    | some e => s.auditPageRead tag q e
    | none => s.reply tag Code.auditRead .notFound

/-- AUDIT_READ (R187). -/
def execAuditRead (tag : Byte) (r : Req Window) (s : State) : Out :=
  s.request tag Code.auditRead r (fun q => s.auditRead tag q)

/-- The fields of an AUDIT_HEAD reply in the order of R188. -/
def State.auditFields (s : State) : List Field :=
  [Fld.u48 (s.audit.counter - 1), Fld.u64 s.audit.chain.toNat, Fld.u32 s.audit.buffer.length, Fld.u32 s.store.undrained] ++
    Fld.opt 1 (s.audit.drain.map (·.val)) ++
    [Fld.u32 s.media.outstanding.length, Fld.u32 s.audit.held.length, Fld.u32 s.audit.map.length] ++
    match s.audit.map.getLast? with
    | some e => [Fld.yes true, Fld.u8 e.chan.val, Fld.u16 e.zone, Fld.u16 e.page]
    | none => [Fld.yes false, Fld.u8 0, Fld.u16 0, Fld.u16 0]

/-- AUDIT_HEAD (R188). -/
def State.auditHead (s : State) (tag : Byte) : State := s.reply tag Code.auditHead .ok s.auditFields

/-- AUDIT_HEAD (R188). -/
def execAuditHead (tag : Byte) (r : Req Unit) (s : State) : Out :=
  s.request tag Code.auditHead r (fun _ => s.auditHead tag)

/-- The oldest undrained record has waited 5 seconds: the timers then stand at the end of its wait or later (log entry 7), and a page
of every undrained record, up to 64, is formed and presented where one can be (R184). -/
def State.auditPageWait (s : State) : State :=
  match s.store.oldest with
  | some m => State.closeEvent s { s with timer := max s.timer (m + Config.auditWait) }
  | none => s

/-- The 5-second wait of the oldest undrained record ends (R184). -/
def execAuditPageWait (s : State) : Out := s.event s.auditPageWait

/-- The owed START_UP record is appended where one is owed and a slot is free (R189). -/
def State.startUpRecord (s : State) : State :=
  if s.audit.startOwed.isSome ∧ s.slotFree then State.closeEvent s s.payStartUp else s

/-- The owed START_UP record is appended (R189). -/
def execStartUpRecord (s : State) : Out := s.event s.startUpRecord

end Sys2Proof.Machine
end

