-- ==== Sys2Proof/Machine/ReadCmds.lean ====
section
/-! DEFINITION. The meanings of the requests that read items and their content (sections 3.6 and 5.2): ITEM_READ, ITEM_SEGMENTS,
SEG_READ, SEG_VERIFY, and the event at which a waiting verify queues its read. -/

namespace Sys2Proof.Machine

/-! ### ITEM_READ -/

/-- The queued day of an item of the disposition queue. -/
def Dispo.queuedDay (d : Dispo) (i : Nat) : Option Nat := (d.queue.find? (fun e => e.item == i)).map (·.day)

/-- The fields of a record that is not DISPOSED, in the order of R99. The number of slots is a count of 4 bytes, 'the party count with
the party list' is the list behind its own 2-byte number of entries with no count of 4 bytes before it, and the queued day stands only for
an ELIGIBLE item, without a presence byte (log entry 13). -/
def liveFields (r : ItemRec) (l : LiveItem) (queued : Option Nat) : List Field :=
  [Fld.liveState l.state, Fld.u8 r.domain, Fld.u64 r.commitSecond, Fld.u32 (dayOf r.commitSecond), Fld.u32 l.sentDay,
    Fld.u32 l.tags.toNat, Fld.u8 l.flags.toNat, Fld.remarks r.remarks] ++ Fld.classSet r.classes ++ Fld.expiry r.expiry ++
    [Fld.u64 l.holdMask.toNat, Fld.u8 l.holdCount] ++ Fld.opt 8 (l.event.map (·.toNat)) ++ [Fld.digest r.fingerprint] ++
    Fld.list (l.parties.map (fun k => Fld.u64 k.toNat)) ++ [Fld.u32 l.segs.length] ++
    (if l.state = .eligible then [Fld.u32 (queued.getD 0)] else [])

/-- The fields of a tombstone (R98, R99): its state, then what it keeps, then the disposal second. -/
def tombFields (n : Nat) (r : ItemRec) (second : Nat) : List Field :=
  [Fld.u8 4, Fld.u24 n, Fld.u8 r.domain, Fld.u64 r.commitSecond] ++ Fld.classSet r.classes ++ Fld.expiry r.expiry ++
    [Fld.digest r.fingerprint, Fld.remarks r.remarks, Fld.u64 second]

/-- The record a request names: none where the number is 0 or has not been assigned (R99). -/
def Index.recordOf (x : Index) (n : Nat) : Option ItemRec := if n = 0 ∨ x.next ≤ n then none else x.item n

/-- ITEM_READ (R99). -/
def State.itemRead (s : State) (tag : Byte) (n : Nat) : State :=
  match s.index.recordOf n with
  | none => s.reply tag Code.itemRead .notFound
  | some r =>
    match r.body with
    | .live l => s.reply tag Code.itemRead .ok (liveFields r l (s.dispo.queuedDay n))
    | .disposed sec => s.reply tag Code.itemRead .ok (tombFields n r sec)

/-- ITEM_READ (R99). -/
def execItemRead (tag : Byte) (r : Req Nat) (s : State) : Out :=
  s.request tag Code.itemRead r (fun n => s.itemRead tag n)

/-! ### ITEM_SEGMENTS -/

/-- The fields of one slot of an item's segment list (R100); an entry in use has a location. -/
def Segs.slotFields (t : Segs) (i : Nat) (g : ItemSeg) : List Field :=
  [Fld.u16 i, Fld.digest g.digest, Fld.u32 g.length] ++ Fld.entryRef g.ref ++
    match t.entry g.ref with
    | some e => Fld.loc e.loc
    | none => [Fld.u8 0, Fld.u16 0, Fld.u16 0, Fld.u16 0]

/-- The window of an item's segment list that a request asks for, with slot numbers (R100). -/
def LiveItem.window (l : LiveItem) (first count : Nat) : List (ItemSeg × Nat) := ((l.segs.zipIdx).drop first).take count

/-- ITEM_SEGMENTS (R100); the item's number of slots is a count of 4 bytes (log entry 13). -/
def State.itemSegments (s : State) (tag : Byte) (q : ItemSegments) : State :=
  match s.index.recordOf q.item with
  | none => s.reply tag Code.itemSegments .notFound
  | some r =>
    match r.body with
    | .disposed _ => s.reply tag Code.itemSegments .gone
    | .live l =>
      if l.segs.length ≤ q.first then s.reply tag Code.itemSegments .badSlot
      else if q.count = 0 ∨ 64 < q.count then s.reply tag Code.itemSegments .badField
      else
        s.reply tag Code.itemSegments .ok
          (Fld.u32 l.segs.length :: Fld.rows ((l.window q.first q.count).map (fun g => s.segs.slotFields g.2 g.1)))

/-- ITEM_SEGMENTS (R100). -/
def execItemSegments (tag : Byte) (r : Req ItemSegments) (s : State) : Out :=
  s.request tag Code.itemSegments r (fun q => s.itemSegments tag q)

/-! ### SEG_READ -/

/-- Steps (1) to (3) of R69: the slot named and its entry, or the refusal. -/
def State.slotOf (s : State) (item slot : Nat) : Status ⊕ (ItemSeg × Loc) :=
  match s.index.recordOf item with
  | none => .inl .notFound
  | some r =>
    match r.body with
    | .disposed _ => .inl .gone
    | .live l =>
      match l.segs[slot]? with
      | none => .inl .badSlot
      | some g =>
        match s.segs.entry g.ref with
        | some e => .inr (g, e.loc)
        | none => .inl .badSlot

/-- The pages a range of a segment spans: the first, and how many (R69). -/
def pageSpan (offset count : Nat) : Nat × Nat :=
  (offset / Config.pageBytes, (offset + count - 1) / Config.pageBytes - offset / Config.pageBytes + 1)

/-- Page reads for the parts of a SEG_READ, in page order (R69). -/
def Channel.pushParts (c : Channel) (zone page id n : Nat) : Channel :=
  (List.range n).foldl (fun c i => c.pushRead { zone, page := page + i, who := .segRead id i }) c

/-- Steps (4) to (6) of R69: the refusal, if any. -/
def State.readCheck (s : State) (g : ItemSeg) (l : Loc) (offset count : Nat) : Option Status :=
  if count = 0 ∨ Config.dataMax < count ∨ g.length < offset + count then some .badField
  else if (s.media.get l.chan).state = .offline then some .offline
  else if (s.media.get l.chan).readRoom < (pageSpan offset count).2 then some .busy
  else none

/-- An accepted SEG_READ queues its page reads (R69). -/
def State.startRead (s : State) (tag : Byte) (q : SegReadReq) (l : Loc) : State :=
  let span := pageSpan q.offset q.count
  let id := s.segs.nextRead
  let r : SegRead :=
    { id, tag, item := q.item, skip := q.offset % Config.pageBytes, count := q.count, parts := List.replicate span.2 .pending }
  let t : State := { s with segs := { s.segs with reads := s.segs.reads ++ [r], nextRead := id + 1 } }
  t.setChan l.chan ((s.media.get l.chan).pushParts l.zone (l.first + span.1) id span.2)

/-- SEG_READ (R69). -/
def State.segRead (s : State) (tag : Byte) (q : SegReadReq) : State :=
  match s.slotOf q.item q.slot with
  | .inl st => s.reply tag Code.segRead st
  | .inr (g, l) =>
    match s.readCheck g l q.offset q.count with
    | some st => s.reply tag Code.segRead st
    | none => State.closeEvent s (s.startRead tag q l)

/-- SEG_READ (R69). -/
def execSegRead (tag : Byte) (r : Req SegReadReq) (s : State) : Out :=
  s.request tag Code.segRead r (fun q => s.segRead tag q)

/-! ### SEG_VERIFY -/

/-- The lowest free verify place (R71). -/
def Segs.freePlace (t : Segs) : Option Nat :=
  (List.range Config.verifies).find? (fun p => t.verifies.all (fun v => v.place != p))

/-- An accepted verify takes a place and presents the read of its first page (R71). -/
def State.startVerify (s : State) (tag : Byte) (item place : Nat) (g : ItemSeg) (l : Loc) : State :=
  let v : Verify :=
    { place, tag, item, digest := g.digest, length := g.length, loc := l, next := 0, sha := Sha.start, waiting := false }
  State.verifyRead { s with segs := { s.segs with verifies := s.segs.verifies ++ [v] } } v

/-- SEG_VERIFY (R71). -/
def State.segVerify (s : State) (tag : Byte) (q : SegVerifyReq) : State :=
  match s.slotOf q.item q.slot with
  | .inl st => s.reply tag Code.segVerify st
  | .inr (g, l) =>
    if (s.media.get l.chan).state = .offline then s.reply tag Code.segVerify .offline
    else
      match s.segs.freePlace with
      | none => s.reply tag Code.segVerify .busy
      | some p => State.closeEvent s (s.startVerify tag q.item p g l)

/-- SEG_VERIFY (R71). -/
def execSegVerify (tag : Byte) (r : Req SegVerifyReq) (s : State) : Out :=
  s.request tag Code.segVerify r (fun q => s.segVerify tag q)

/-- The verify that has waited longest for room in a channel's READ queue (R72). -/
def State.waitingVerify (s : State) (ch : ChanNo) : Option Verify :=
  s.segs.verifyWait.findSome? (fun p => s.segs.verifies.find? (fun v => v.place == p && v.loc.chan == ch))

/-- A verify waiting for room queues its next page read, where a place is free; on an OFFLINE channel the read is answered
OFFLINE (R72, R164). -/
def State.verifyReadQueued (s : State) (ch : ChanNo) : State :=
  match s.waitingVerify ch with
  | some v =>
    if 0 < (s.media.get ch).readRoom ∨ (s.media.get ch).state = .offline then State.closeEvent s (s.verifyRead v) else s
  | none => s

/-- A waiting verify queues its next page read (R72). -/
def execVerifyReadQueued (ch : ChanNo) (s : State) : Out := s.event (s.verifyReadQueued ch)

end Sys2Proof.Machine
end

