-- ==== Sys2Proof/Machine/ClockCmds.lean ====
section
/-! DEFINITION. The meanings of the Retention Clock's commands (chapter 1): CLOCK_READ, CLOCK_SET, CLOCK_ADJUST and the events of
the time base. -/

namespace Sys2Proof.Machine

/-! ### CLOCK_READ -/

/-- The fields of a CLOCK_READ reply in the order of R7. -/
def clockFields (c : Clock) (allowance : Nat) : List Field :=
  [Fld.u64 c.counter, Fld.u32 (dayOf c.counter)] ++ Fld.date (dateOf (dayOf c.counter)) ++
    [Fld.clockState c.state, Fld.u32 c.hold, Fld.u32 c.used, Fld.u32 allowance, Fld.u64 c.hwm]

/-- CLOCK_READ: the counter is written into the HWM, and the reply carries the values after it (R7, R3). -/
def State.clockRead (s : State) (tag : Byte) : State :=
  let c : Clock := { s.clock with hwm := s.clock.counter }
  State.reply { s with clock := c } tag Code.clockRead .ok (clockFields c s.settings.allowance)

/-- CLOCK_READ (R7). -/
def execClockRead (tag : Byte) (r : Req Unit) (s : State) : Out :=
  s.request tag Code.clockRead r (fun _ => s.clockRead tag)

/-! ### CLOCK_SET -/

/-- The highest value CLOCK_SET takes (TABLE 1-2). -/
def State.setHighest (s : State) : Nat :=
  if s.compliant then min (s.clock.hwm + Config.setCeiling) Config.secondMax else Config.secondMax

/-- The value CLOCK_SET takes for a request (R8 (3)). -/
def State.setValue (s : State) (t : Nat) : Nat := max s.clock.hwm (min t s.setHighest)

/-- The clock after an accepted CLOCK_SET, before its record (R8). -/
def State.setClock (s : State) (t : Nat) : Clock :=
  let v := s.setValue t
  { s.clock with
    counter := v
    phase := 0
    state := .running
    hold := 0
    used := if dayOf s.clock.hwm < dayOf v then 0 else s.settings.allowance }

/-- An accepted CLOCK_SET before its record: a day later than that of the HWM is taken as one day rollover (R9). DAY_ROLLOVER is so
raised before any AUDIT_HALF or AUDIT_FULL of the CLOCK_SET record, an order the spec does not give (DESIGN CHOICE, log entry 26). -/
def State.takeSet (s : State) (t : Nat) : State :=
  let u : State := { s with clock := s.setClock t }
  if dayOf s.clock.hwm < dayOf (s.setValue t) then (u.raise .dayRollover).signalDay else u

/-- CLOCK_SET (R8). -/
def State.clockSet (s : State) (tag : Byte) (t : Nat) : State :=
  if s.clock.state ≠ .unset then s.reply tag Code.clockSet .badContext
  else if s.slotFree = false then s.reply tag Code.clockSet .auditFull
  else
    let v := s.setValue t
    s.accept tag Code.clockSet (if v = t then .ok else .clamped) [Fld.u64 v] .clockSet [Fld.u64 t, Fld.u64 v] (s.takeSet t)

/-- CLOCK_SET (R8). -/
def execClockSet (tag : Byte) (r : Req Nat) (s : State) : Out :=
  s.request tag Code.clockSet r (fun t => s.clockSet tag t)

/-! ### CLOCK_ADJUST -/

/-- What a CLOCK_ADJUST did: direction (0 forward, 1 backward, 2 neither), step or lag, reply status. -/
structure Adjust where
  direction : Nat
  amount : Nat
  status : Status
deriving DecidableEq, Repr

/-- The step of a forward correction (R11). -/
def State.forwardStep (s : State) (t : Nat) : Nat :=
  min (t - s.clock.counter) (min (s.settings.allowance - s.clock.used) (Config.secondMax - s.clock.counter))

/-- A forward correction (R11): any hold ends, the counter and U increase by the step, and a day boundary that is crossed
gives the day rollover. -/
def State.adjustForward (s : State) (t : Nat) : State × Adjust :=
  let step := s.forwardStep t
  let c : Clock := { s.clock with counter := s.clock.counter + step, used := s.clock.used + step, state := .running, hold := 0 }
  let u : State := { s with clock := c }
  (if dayOf s.clock.counter < dayOf c.counter then u.rollover else u,
    { direction := 0, amount := step, status := if step = t - s.clock.counter then .ok else .clamped })

/-- A backward correction (R12): a lag above 0 puts the clock into HELD, a lag of 0 ends any hold. -/
def State.adjustBackward (s : State) (t : Nat) : State × Adjust :=
  let lag := min (s.clock.counter - t) s.settings.allowance
  ({ s with clock := { s.clock with state := if lag = 0 then .running else .held, hold := lag } },
    { direction := 1, amount := lag, status := if lag = s.clock.counter - t then .ok else .clamped })

/-- A CLOCK_ADJUST to the present counter value ends any hold (R13). -/
def State.adjustEqual (s : State) : State × Adjust :=
  ({ s with clock := { s.clock with state := .running, hold := 0 } }, { direction := 2, amount := 0, status := .unchanged })

/-- The effect of an accepted CLOCK_ADJUST on the clock (R10 (3)). -/
def State.adjust (s : State) (t : Nat) : State × Adjust :=
  if s.clock.counter < t then s.adjustForward t
  else if t < s.clock.counter then s.adjustBackward t
  else s.adjustEqual

/-- CLOCK_ADJUST (R10). -/
def State.clockAdjust (s : State) (tag : Byte) (t : Nat) : State :=
  if s.clock.state = .unset then s.reply tag Code.clockAdjust .clockUnset
  else if s.slotFree = false then s.reply tag Code.clockAdjust .auditFull
  else
    let a := s.adjust t
    s.accept tag Code.clockAdjust a.2.status [Fld.u64 a.1.clock.counter, Fld.u32 a.2.amount, Fld.clockState a.1.clock.state]
      .clockAdjusted
      [Fld.u64 t, Fld.u64 s.clock.counter, Fld.u8 a.2.direction, Fld.u32 a.2.amount, Fld.u8 a.2.status.code,
        Fld.clockState a.1.clock.state]
      a.1

/-- CLOCK_ADJUST (R10). -/
def execClockAdjust (tag : Byte) (r : Req Nat) (s : State) : Out :=
  s.request tag Code.clockAdjust r (fun t => s.clockAdjust tag t)

/-! ### The time base -/

/-- The time base marks an elapsed second (R1). -/
def execTimeBaseSecond (s : State) : Out := if s.marks then .next s.elapse else .next s

/-- The second at which the hold remainder reaches 0 (R14): of a clock in any other condition it changes nothing
(log entry 9). -/
def execHoldEnd (s : State) : Out :=
  if s.marks ∧ s.clock.state = .held ∧ s.clock.hold ≤ 1 then .next s.elapse else .next s

/-- The second at which the counter reaches a multiple of 86,400 while powered (R16). -/
def execDayRollover (s : State) : Out := if s.powered ∧ s.rolloverNext then .next s.elapse else .next s

/-- The second at which the counter reaches a multiple of 86,400 while unpowered (R17). -/
def execDayRolloverUnpowered (s : State) : Out :=
  if s.powered = false ∧ s.marks ∧ s.rolloverNext then .next s.elapse else .next s

/-- The time base reports loss (R5). -/
def execTimeBaseLoss (s : State) : Out := .next s.lose

end Sys2Proof.Machine
end

