-- ==== Sys2Proof/Machine/DispoCmds.lean ====
section
/-! DEFINITION. The meanings of the Disposition Unit's commands (chapter 7): DISPO_LIST, DISPO_RELEASE, DISPO_STATUS, due
processing, the AUTO release and the disposal event. -/

namespace Sys2Proof.Machine

/-- DISPO_LIST (R142). -/
def State.dispoList (s : State) (tag : Byte) (q : Window) : State :=
  if q.count = 0 ∨ 64 < q.count then s.reply tag Code.dispoList .badField
  else
    s.reply tag Code.dispoList .ok
      (Fld.u32 s.dispo.queue.length ::
        Fld.rows (((s.dispo.queue.zipIdx.drop q.first).take q.count).map (fun e => [Fld.u32 e.2, Fld.u24 e.1.item, Fld.u32 e.1.day])))

/-- DISPO_LIST (R142). -/
def execDispoList (tag : Byte) (r : Req Window) (s : State) : Out :=
  s.request tag Code.dispoList r (fun q => s.dispoList tag q)

/-- DISPO_RELEASE (R144, R145). -/
def State.dispoRelease (s : State) (tag : Byte) (q : DispoRelease) : State :=
  if q.n = 0 ∨ Config.disposalList < q.n then s.reply tag Code.dispoRelease .badField
  else if s.dispo.list ≠ [] then s.reply tag Code.dispoRelease .busy
  else
    match s.dispo.queue with
    | [] => s.reply tag Code.dispoRelease .empty
    | h :: _ =>
      if h.item ≠ q.first then s.reply tag Code.dispoRelease .stale [Fld.u24 h.item, Fld.u32 h.day]
      else if s.slotFree = false then s.reply tag Code.dispoRelease .auditFull
      else
        let n := min q.n s.dispo.queue.length
        s.answer tag Code.dispoRelease (if n = q.n then .ok else .clamped) [Fld.u32 n]
          (State.closeEvent s (s.release false n (some q.n)))

/-- DISPO_RELEASE (R144). -/
def execDispoRelease (tag : Byte) (r : Req DispoRelease) (s : State) : Out :=
  s.request tag Code.dispoRelease r (fun q => s.dispoRelease tag q)

/-- The fields of a DISPO_STATUS reply in the order of R143. -/
def State.dispoFields (s : State) : List Field :=
  let due := (s.index.dueSet s.today).length
  let unset := decide (s.clock.state = .unset)
  let waits := !s.dispo.list.isEmpty
  [Fld.u32 s.dispo.queue.length] ++ Fld.opt 4 (s.dispo.queue.head?.map (·.day)) ++ Fld.opt 4 (s.dispo.queue.getLast?.map (·.day)) ++
    [Fld.u32 due, Fld.yes s.dispo.duePause, Fld.yes (decide (0 < due) && unset)] ++
    [Fld.u32 s.dispo.list.length, Fld.yes (waits && !s.slotFree), Fld.yes (waits && unset)] ++
    (match s.dispo.batch with
      | some b => Fld.yes true :: Fld.batch b
      | none => [Fld.yes false, { width := 25, value := 0 }]) ++
    [Fld.yes s.settings.auto, Fld.u32 s.settings.grace, Fld.yes s.dispo.autoWait]

/-- DISPO_STATUS (R143). -/
def State.dispoStatus (s : State) (tag : Byte) : State := s.reply tag Code.dispoStatus .ok s.dispoFields

/-- DISPO_STATUS (R143). -/
def execDispoStatus (tag : Byte) (r : Req Unit) (s : State) : Out :=
  s.request tag Code.dispoStatus r (fun _ => s.dispoStatus tag)

/-- Due processing of the head of the due set, under the conditions of R137; a full queue sets the due pause (R139). -/
def State.dueProcessing (s : State) : State :=
  if s.clock.state = .unset then s
  else
    match s.index.dueSet s.today with
    | [] => s
    | i :: _ =>
      if s.dispo.queue.length < Config.dispoQueue then s.dueItem i
      else { s with dispo := { s.dispo with duePause := true } }

/-- An event of due processing (R138). -/
def execDueProcessing (s : State) : Out := s.event s.dueProcessing

/-- The release of the grace run with the cause AUTO at a free audit slot, where the run is not empty and the disposal list is. The
AUTO wait ends, whether the run is released or is empty (R147). -/
def State.releaseRun (s : State) : State :=
  let t : State := { s with dispo := { s.dispo with opportunity := false, autoWait := false } }
  if s.dispo.list ≠ [] ∨ s.graceRun = 0 then t else State.closeEvent s (t.release true s.graceRun none)

/-- An AUTO release opportunity is settled, or the AUTO wait ends at a free audit slot; without a slot an opportunity whose grace run
could be released sets the wait (R147). -/
def State.autoRelease (s : State) : State :=
  if s.dispo.opportunity = false ∧ s.dispo.autoWait = false then s
  else if s.slotFree then s.releaseRun
  else if s.dispo.opportunity ∧ s.dispo.list = [] ∧ s.graceRun ≠ 0 then
    { s with dispo := { s.dispo with opportunity := false, autoWait := true } }
  else { s with dispo := { s.dispo with opportunity := false } }

/-- An AUTO release, in AUTO mode (R147). -/
def execAutoRelease (s : State) : Out := s.event (if s.settings.auto then s.autoRelease else s)

/-- The disposal event of the head of the disposal list, where an audit slot is free and the clock is not UNSET (R149). -/
def State.disposalEvent (s : State) : State :=
  if s.slotFree = false ∨ s.clock.state = .unset then s
  else
    match s.dispo.list with
    | [] => s
    | i :: _ => State.closeEvent s (s.disposalOf i)

/-- A disposal event (R150). -/
def execDisposalEvent (s : State) : Out := s.event s.disposalEvent

end Sys2Proof.Machine
end

