-- ==== Sys2Proof/Machine/HoldCmds.lean ====
section
/-! DEFINITION. The meanings of the Hold Unit's requests (chapter 6): matters and custodians. -/

namespace Sys2Proof.Machine

/-! ### Matters -/

/-- The fields fail the tests of check (1) of R118. -/
def badMatter (q : MatterSet) : Bool :=
  decide (Config.matters ≤ q.matter) ||
    (match q.body.range with
      | none => false
      | some (a, b) => decide (Config.dayMax < a ∨ Config.dayMax < b ∨ b < a))

/-- MATTER_OPEN (R118). -/
def State.matterOpen (s : State) (tag : Byte) (q : MatterSet) : State :=
  if badMatter q then s.reply tag Code.matterOpen .badField
  else if s.hold.matter q.matter ≠ .free then s.reply tag Code.matterOpen .busy
  else if s.index.admits [.hold q.matter] = false then s.reply tag Code.matterOpen .sweepFull
  else if s.slotFree = false then s.reply tag Code.matterOpen .auditFull
  else
    s.accept tag Code.matterOpen .ok (Fld.matter (.active q.body)) .matterOpened (Fld.u8 q.matter :: Fld.matterFields q.body)
      { s with hold := s.hold.setMatter q.matter (.active q.body), index := s.index.enqueue [.hold q.matter] }

/-- MATTER_OPEN (R118). -/
def execMatterOpen (tag : Byte) (r : Req MatterSet) (s : State) : Out :=
  s.request tag Code.matterOpen r (fun q => s.matterOpen tag q)

/-- MATTER_AMEND (R119). -/
def State.matterAmend (s : State) (tag : Byte) (q : MatterSet) : State :=
  if badMatter q then s.reply tag Code.matterAmend .badField
  else
    match s.hold.matter q.matter with
    | .active old =>
      if old = q.body then s.reply tag Code.matterAmend .unchanged
      else if s.index.admits [.hold q.matter] = false then s.reply tag Code.matterAmend .sweepFull
      else if s.slotFree = false then s.reply tag Code.matterAmend .auditFull
      else
        s.accept tag Code.matterAmend .ok (Fld.matter (.active q.body)) .matterAmended
          (Fld.u8 q.matter :: (Fld.matterFields old ++ Fld.matterFields q.body ++ [Fld.u8 (s.index.answerOf (.hold q.matter)).code]))
          { s with hold := s.hold.setMatter q.matter (.active q.body), index := s.index.enqueue [.hold q.matter] }
    | _ => s.reply tag Code.matterAmend .badContext

/-- MATTER_AMEND (R119). -/
def execMatterAmend (tag : Byte) (r : Req MatterSet) (s : State) : Out :=
  s.request tag Code.matterAmend r (fun q => s.matterAmend tag q)

/-- MATTER_CLOSE (R120). -/
def State.matterClose (s : State) (tag : Byte) (m : Nat) : State :=
  if Config.matters ≤ m then s.reply tag Code.matterClose .badField
  else
    match s.hold.matter m with
    | .active f =>
      if s.index.admits [.hold m] = false then s.reply tag Code.matterClose .sweepFull
      else if s.slotFree = false then s.reply tag Code.matterClose .auditFull
      else
        s.accept tag Code.matterClose .ok [] .matterClosed
          (Fld.u8 m :: (Fld.matterFields f ++ [Fld.u8 (s.index.answerOf (.hold m)).code]))
          { s with hold := s.hold.setMatter m (.lifting f), index := s.index.enqueue [.hold m] }
    | _ => s.reply tag Code.matterClose .badContext

/-- MATTER_CLOSE (R120). -/
def execMatterClose (tag : Byte) (r : Req Nat) (s : State) : Out :=
  s.request tag Code.matterClose r (fun m => s.matterClose tag m)

/-- MATTER_READ (R134). Whether the head of the sweep queue is a HOLD sweep of the matter is one yes or no byte, which does not tell a
head that runs from one that waits to complete (DESIGN CHOICE, log entry 13). -/
def State.matterRead (s : State) (tag : Byte) (m : Nat) : State :=
  if Config.matters ≤ m then s.reply tag Code.matterRead .badField
  else
    s.reply tag Code.matterRead .ok
      (Fld.matter (s.hold.matter m) ++
        [Fld.u32 (s.index.sweeps.countP (fun r => decide (r = .hold m))), Fld.yes (decide (s.index.sweeps.head? = some (.hold m))),
          Fld.u32 (s.hold.custodians.countP (fun e => e.2.mask.getLsbD m))])

/-- MATTER_READ (R134). -/
def execMatterRead (tag : Byte) (r : Req Nat) (s : State) : Out :=
  s.request tag Code.matterRead r (fun m => s.matterRead tag m)

/-! ### Custodians -/

/-- The matters present in exactly one of two masks, in ascending order (R123). -/
def changedMatters (old new : BitVec 64) : List Nat :=
  (List.range Config.matters).filter (fun m => old.getLsbD m != new.getLsbD m)

/-- A matter is ACTIVE. -/
def Hold.isActive (h : Hold) (m : Nat) : Bool := match h.matter m with | .active _ => true | _ => false

/-- A matter is LIFTING. -/
def Hold.isLifting (h : Hold) (m : Nat) : Bool := match h.matter m with | .lifting _ => true | _ => false

/-- The ACTIVE changed matters of a request (R124). -/
def Hold.toSweep (h : Hold) (q : CustodianSet) : List Nat := (changedMatters (h.maskOf q.key) q.mask).filter h.isActive

/-- The position a key's entry has or would take: none where it has none and every position holds an entry (R122). -/
def Hold.place (h : Hold) (k : Key) : Option Nat :=
  match h.find k with
  | some e => some e.1
  | none => Table.firstFree h.custodians 0 Config.custodians

/-- The custodian table with a key's mask written at its position: an empty mask removes the entry (R124). -/
def Hold.setCustodian (h : Hold) (p : Nat) (q : CustodianSet) : Hold :=
  { h with custodians := if q.mask = 0 then Table.del h.custodians p else Table.put h.custodians p { key := q.key, mask := q.mask } }

/-- The checks of R123: the refusal, or the position the change is made at. -/
def State.custodianCheck (s : State) (q : CustodianSet) : Status ⊕ Nat :=
  if q.mask = s.hold.maskOf q.key then .inl .unchanged
  else if (changedMatters (s.hold.maskOf q.key) q.mask).any s.hold.isLifting then .inl .busy
  else
    match s.hold.place q.key with
    | none => .inl .tableFull
    | some p =>
      if s.index.admits ((s.hold.toSweep q).map .hold) = false then .inl .sweepFull
      else if s.slotFree = false then .inl .auditFull
      else .inr p

/-- CUSTODIAN_SET (R123, R124). In the record's list of the ACTIVE changed matters each entry is the matter's number and then the answer
its sweep received (log entry 13). -/
def State.custodianSet (s : State) (tag : Byte) (q : CustodianSet) : State :=
  match s.custodianCheck q with
  | .inl st => s.reply tag Code.custodianSet st
  | .inr p =>
    let ms := s.hold.toSweep q
    s.accept tag Code.custodianSet .ok [Fld.u32 p, Fld.u64 q.mask.toNat] .custodianChanged
      ([Fld.u64 q.key.toNat, Fld.u32 p, Fld.u64 (s.hold.maskOf q.key).toNat, Fld.u64 q.mask.toNat] ++
        Fld.rows (ms.map (fun m => [Fld.u8 m, Fld.u8 (s.index.answerOf (.hold m)).code])))
      { s with hold := s.hold.setCustodian p q, index := s.index.enqueue (ms.map .hold) }

/-- CUSTODIAN_SET (R123). -/
def execCustodianSet (tag : Byte) (r : Req CustodianSet) (s : State) : Out :=
  s.request tag Code.custodianSet r (fun q => s.custodianSet tag q)

/-- CUSTODIAN_FIND (R125). -/
def State.custodianFind (s : State) (tag : Byte) (k : Key) : State :=
  match s.hold.find k with
  | some (p, m) => s.reply tag Code.custodianFind .ok [Fld.u32 p, Fld.u64 m.toNat]
  | none => s.reply tag Code.custodianFind .notFound

/-- CUSTODIAN_FIND (R125). -/
def execCustodianFind (tag : Byte) (r : Req Key) (s : State) : Out :=
  s.request tag Code.custodianFind r (fun k => s.custodianFind tag k)

/-- CUSTODIAN_READ (R125). Key and mask stand behind one presence byte, 1 for an entry; at an empty position it is 0 and 0x00 bytes follow
(DESIGN CHOICE, log entry 13). -/
def State.custodianRead (s : State) (tag : Byte) (p : Nat) : State :=
  if Config.custodians ≤ p then s.reply tag Code.custodianRead .badField
  else
    let e := Table.find s.hold.custodians p
    s.reply tag Code.custodianRead .ok
      [Fld.yes e.isSome, Fld.u64 ((e.map (·.key.toNat)).getD 0), Fld.u64 ((e.map (·.mask.toNat)).getD 0),
        Fld.u32 s.hold.custodians.length]

/-- CUSTODIAN_READ (R125). -/
def execCustodianRead (tag : Byte) (r : Req Nat) (s : State) : Out :=
  s.request tag Code.custodianRead r (fun p => s.custodianRead tag p)

end Sys2Proof.Machine
end

