-- ==== Sys2Proof/Machine/IndexCmds.lean ====
section
/-! DEFINITION. The meanings of the Item Index's remaining commands (chapter 5): EVENT_POST, EVENT_READ, SWEEP_STATUS, the sweep
steps and the completion of a sweep. -/

namespace Sys2Proof.Machine

/-! ### EVENT_POST and EVENT_READ -/

/-- The sweep a post of a key needs: one where the key's item list is not empty (R107). -/
def Index.postSweeps (x : Index) (k : Key) : List SweepReq :=
  match x.event k with
  | some e => if e.items = [] then [] else [.event k]
  | none => []

/-- The checks of R106 with the posted day `day`: the refusal with its fields, if any. -/
def State.postCheck (s : State) (k : Key) (day : Nat) : Option (Status × List Field) :=
  let e := s.index.event k
  let stored := e.bind (·.posted)
  if e = none ∧ Config.eventKeys ≤ s.index.events.length then some (.eventTableFull, [])
  else if stored.any (fun d => decide (day ≤ d)) then some (.unchanged, [Fld.u32 (stored.getD 0), Fld.u32 day])
  else if s.index.admits (s.index.postSweeps k) = false then some (.sweepFull, [])
  else if s.slotFree = false then some (.auditFull, [])
  else none

/-- The answer the post's EVENT sweep receives, or not needed (R107). -/
def Index.postAnswer (x : Index) (k : Key) : SweepAnswer :=
  if x.postSweeps k = [] then .notNeeded else x.answerOf (.event k)

/-- The index after an accepted post: the key POSTED with the posted day, its list as it was, and its sweep admitted (R107). -/
def Index.post (x : Index) (k : Key) (day : Nat) : Index :=
  (x.setEvent k { posted := some day, items := ((x.event k).map (·.items)).getD [] }).enqueue (x.postSweeps k)

/-- EVENT_POST (R106, R107). -/
def State.eventPost (s : State) (tag : Byte) (q : EventPost) : State :=
  let day := min q.day s.today
  match s.postCheck q.key day with
  | some r => s.reply tag Code.eventPost r.1 r.2
  | none =>
    s.accept tag Code.eventPost (if day = q.day then .ok else .clamped) [Fld.u32 day, Fld.u8 1] .eventPosted
      ([Fld.u64 q.key.toNat, Fld.u32 q.day, Fld.u32 day] ++ Fld.eventState (s.index.event q.key) ++
        [Fld.u8 (s.index.postAnswer q.key).code])
      { s with index := s.index.post q.key day }

/-- EVENT_POST (R106). -/
def execEventPost (tag : Byte) (r : Req EventPost) (s : State) : Out :=
  s.request tag Code.eventPost r (fun q => s.eventPost tag q)

/-- EVENT_READ (R108). -/
def State.eventRead (s : State) (tag : Byte) (q : EventRead) : State :=
  if q.count = 0 ∨ 256 < q.count then s.reply tag Code.eventRead .badField
  else
    match s.index.event q.key with
    | none => s.reply tag Code.eventRead .notFound
    | some e =>
      s.reply tag Code.eventRead .ok
        ([Fld.u8 (if e.posted.isSome then 1 else 0)] ++ Fld.opt 4 e.posted ++ [Fld.u32 e.items.length] ++
          Fld.list (((e.items.drop q.first).take q.count).map Fld.u24))

/-- EVENT_READ (R108). -/
def execEventRead (tag : Byte) (r : Req EventRead) (s : State) : Out :=
  s.request tag Code.eventRead r (fun q => s.eventRead tag q)

/-! ### SWEEP_STATUS -/

/-- What SWEEP_STATUS adds for the head: running or waiting, its limit, cursor and changed count (R116). Limit and
cursor take 4 bytes for every kind of sweep, and where the queue is empty all four fields are left out, without a presence byte (log
entry 13). -/
def Index.headFields (x : Index) : List Field :=
  match x.running with
  | some (r, u) => [Fld.u8 (if r.past u then 1 else 0), Fld.u32 u.limit, Fld.u32 u.cursor, Fld.u32 u.changed]
  | none => []

/-- SWEEP_STATUS (R116): the number of requests is the 2-byte number of entries of their list (log entry 13). -/
def State.sweepStatus (s : State) (tag : Byte) : State :=
  s.reply tag Code.sweepStatus .ok (Fld.rows (s.index.sweeps.map Fld.sweepReq) ++ s.index.headFields)

/-- SWEEP_STATUS (R116). -/
def execSweepStatus (tag : Byte) (r : Req Unit) (s : State) : Out :=
  s.request tag Code.sweepStatus r (fun _ => s.sweepStatus tag)

/-! ### Sweep steps -/

/-- The step of a HOLD sweep at its cursor (R113, R130, R131): none where no HOLD sweep has a step to take. -/
def State.stepHold (s : State) : State :=
  match s.index.running with
  | some (.hold m, u) =>
    if (SweepReq.hold m).past u then s else (s.holdStep m u.cursor).1.advance u (s.holdStep m u.cursor).2
  | _ => s

/-- A step of a HOLD sweep (R130). -/
def execHoldSweepStep (s : State) : Out := s.event s.stepHold

/-- The step of a CLASS sweep at its cursor (R113, R94, R95): none where no CLASS sweep has a step to take. -/
def State.stepClass (s : State) : State :=
  match s.index.running with
  | some (.cls c, u) =>
    if (SweepReq.cls c).past u then s else (s.classStep c u.cursor).1.advance u (s.classStep c u.cursor).2
  | _ => s

/-- A step of a CLASS sweep (R94). -/
def execClassSweepStep (s : State) : Out := s.event s.stepClass

/-- The item at a position of a key's list. -/
def Index.listed (x : Index) (k : Key) (n : Nat) : Option Nat := (x.event k).bind (fun e => e.items[n]?)

/-- The step of an EVENT sweep at its cursor (R113, R109, R110): none where no EVENT sweep has a step to take. -/
def State.stepEvent (s : State) : State :=
  match s.index.running with
  | some (.event k, u) =>
    if (SweepReq.event k).past u then s
    else
      match s.index.listed k u.cursor with
      | some i => (s.eventStep i).1.advance u (s.eventStep i).2
      | none => s.advance u false
  | _ => s

/-- A step of an EVENT sweep (R109). -/
def execEventSweepStep (s : State) : Out := s.event s.stepEvent

/-- The running sweep completes where its cursor has passed its limit and an audit slot is free (R114). -/
def State.sweepCompletion (s : State) : State :=
  match s.index.running with
  | some (r, u) => if r.past u ∧ s.slotFree then State.closeEvent s (s.completeSweep r u) else s
  | none => s

/-- The completion of a sweep (R114). -/
def execSweepCompletion (s : State) : Out := s.event s.sweepCompletion

end Sys2Proof.Machine
end

