-- ==== Sys2Proof/Machine/LinkCmds.lean ====
section
/-! DEFINITION. The meanings of the Link interface's commands (chapter 10): IDENTIFY, the archive settings, the compliance mode,
the notices, RESET and the link reset, unknown requests, dropped frames, and power. -/

namespace Sys2Proof.Machine

/-! ### IDENTIFY -/

/-- The ASCII bytes of a name in a field of `w` bytes, padded with spaces (R202). -/
def asciiField (w : Nat) (name : String) : Field :=
  let cs := name.toList.map (fun c => BitVec.ofNat 8 c.toNat)
  { width := w, value := ofBytes ((cs ++ List.replicate (w - cs.length) 0x20).take w) }

/-- The parameters of TABLE 10-6 in its order, row by row. -/
def identifyTable : List (String × Nat) :=
  [("ITEM_MAX", Config.itemMax), ("CONTEXTS", Config.contexts), ("PARTIES_MAX", Config.partiesMax), ("SLOTS_MAX", Config.slotsMax),
    ("SEG_BUCKETS", Config.buckets), ("SEG_WAYS", Config.ways), ("SEG_OVERFLOW", Config.overflow),
    ("WAITERS_MAX", Config.waitersMax), ("CLAIMS_MAX", Config.claimsMax), ("DEDUP_GROUPS", Config.groups),
    ("CLASSES", Config.classes), ("CLASSES_PER_ITEM", Config.classesPerItem), ("DOMAINS", Config.domains),
    ("POLICY_ENTRIES", Config.policyEntries), ("CALL_DEPTH", Config.callDepth), ("VISIT_CAP", Config.visitCap),
    ("ARCHIVE_FLAGS", 8), ("EVENT_KEYS", Config.eventKeys), ("SWEEP_QUEUE", Config.sweepQueue), ("MATTERS", Config.matters),
    ("CUSTODIANS", Config.custodians), ("DISPO_QUEUE", Config.dispoQueue), ("DISPOSAL_LIST", Config.disposalList),
    ("CHANNELS", 4), ("ZONES_PER_CH", Config.dataZones + 1), ("PAGES_PER_ZONE", Config.zonePages),
    ("PAGE_BYTES", Config.pageBytes), ("SEG_BYTES_MAX", Config.segMax), ("STAGING_PAGES", Config.stagingPages),
    ("READ_QUEUE", Config.readQueue), ("AUDIT_QUEUE", Config.auditQueue), ("VERIFIES", Config.verifies),
    ("SUSPEND_MAX", Config.suspendMax), ("AUDIT_BUFFER", Config.auditBuffer), ("RECS_PER_PAGE", Config.recsPerPage),
    ("PAYLOAD_MAX", Config.payloadMax), ("SECOND_MAX", Config.secondMax), ("DAY_MAX", Config.dayMax)]

/-- The fields of an IDENTIFY reply (R202). -/
def identifyFields (compliant : Bool) : List Field :=
  [asciiField 6 "KC2300", Fld.u16 Config.revision, Fld.yes compliant] ++
    Fld.rows (identifyTable.map (fun e => [asciiField 16 e.1, Fld.u64 e.2]))

/-- IDENTIFY (R202). -/
def State.identify (s : State) (tag : Byte) : State := s.reply tag Code.identify .ok (identifyFields s.compliant)

/-- IDENTIFY (R202). -/
def execIdentify (tag : Byte) (r : Req Unit) (s : State) : Out :=
  s.request tag Code.identify r (fun _ => s.identify tag)

/-! ### Archive settings -/

/-- The present value of a setting (TABLE 10-5). -/
def Settings.value (t : Settings) (n : Nat) : Nat :=
  match n with
  | 0 => t.allowance
  | 1 => t.timeout
  | 2 => t.auto.toNat
  | 3 => t.grace
  | 4 => t.throttle
  | 5 => t.reserve
  | 6 => t.readWeight
  | 7 => t.ingestWeight
  | 8 => t.reclaimWeight
  | 9 => t.notices.toNat
  | _ => 0

/-- Write a setting (TABLE 10-5). -/
def Settings.write (t : Settings) (n v : Nat) : Settings :=
  match n with
  | 0 => { t with allowance := v }
  | 1 => { t with timeout := v }
  | 2 => { t with auto := decide (v = 1) }
  | 3 => { t with grace := v }
  | 4 => { t with throttle := v }
  | 5 => { t with reserve := v }
  | 6 => { t with readWeight := v }
  | 7 => { t with ingestWeight := v }
  | 8 => { t with reclaimWeight := v }
  | 9 => { t with notices := BitVec.ofNat 12 v }
  | _ => t

/-- The range of a setting (TABLE 10-5), its lowest and its highest value: none above setting 9. The table gives that of NOTICE_ENABLE as a
set of the 12 kinds; as a mask it lies from 0 to 4,095, and that SETTING_GET carries it so, in two values like the other ranges, is a
DESIGN CHOICE (log entry 13). -/
def settingRange (n : Nat) : Option (Nat × Nat) :=
  match n with
  | 0 => some (0, 3600)
  | 1 => some (10, 3600)
  | 2 => some (0, 1)
  | 3 => some (0, 365)
  | 4 => some (1, 4096)
  | 5 => some (4, 1024)
  | 6 => some (1, 15)
  | 7 => some (1, 15)
  | 8 => some (1, 15)
  | 9 => some (0, 4095)
  | _ => none

/-- The COMPLIANT restriction of a setting: 0 none, 1 it may not be raised, 2 it may not be lowered (TABLE 10-5); one byte with these
values says whether and in which direction (log entry 13). -/
def settingRestriction (n : Nat) : Nat :=
  match n with
  | 0 => 1
  | 2 => 1
  | 3 => 2
  | _ => 0

/-- A change that TABLE 10-5 restricts. -/
def restricted (n old new : Nat) : Bool :=
  decide ((settingRestriction n = 1 ∧ old < new) ∨ (settingRestriction n = 2 ∧ new < old))

/-- The value lies in the range of a setting that exists. -/
def settingInRange (n v : Nat) : Bool :=
  match settingRange n with
  | some (lo, hi) => decide (lo ≤ v ∧ v ≤ hi)
  | none => false

/-- Check (2) of R198: after the change SPACE_THROTTLE would not be greater than SPACE_RESERVE. -/
def badPair (t : Settings) (n : Nat) : Bool := decide ((n = 4 ∨ n = 5) ∧ t.throttle ≤ t.reserve)

/-- The checks of R198: the first refusal that applies. -/
def State.settingCheck (s : State) (n v : Nat) : Option Status :=
  if settingInRange n v = false then some .badField
  else if badPair (s.settings.write n v) n then some .badField
  else if s.compliant ∧ restricted n (s.settings.value n) v then some .mode
  else if v = s.settings.value n then some .unchanged
  else if s.slotFree = false then some .auditFull
  else none

/-- A change of DISPO_MODE: to AUTO it is an AUTO release opportunity, to REVIEW it drops what AUTO had waiting (R146, R147). -/
def Dispo.mode (d : Dispo) (n v : Nat) : Dispo :=
  if n = 2 then (if v = 1 then { d with opportunity := true } else { d with opportunity := false, autoWait := false }) else d

/-- A change of NOTICE_ENABLE that enables a kind whose flag is set forms one NOTICE frame (R196). -/
def State.noteEnabled (old s : State) : State :=
  if s.link.flags &&& s.settings.notices &&& ~~~old.settings.notices = 0 then s
  else s.emit (noticeFrame s.link.flags s.settings.notices)

/-- The state a setting's change makes, before its record. A NOTICE frame of a changed NOTICE_ENABLE (R196) is so formed before any
AUDIT_HALF or AUDIT_FULL of the SETTING_CHANGED record, an order the spec does not give (DESIGN CHOICE, log entry 26). -/
def State.writeSetting (s : State) (n v : Nat) : State :=
  State.noteEnabled s { s with settings := s.settings.write n v, dispo := s.dispo.mode n v }

/-- SETTING_SET (R198). -/
def State.settingSet (s : State) (tag : Byte) (q : SettingSet) : State :=
  match s.settingCheck q.setting q.value with
  | some st => s.reply tag Code.settingSet st
  | none =>
    s.accept tag Code.settingSet .ok [] .settingChanged
      [Fld.u8 q.setting, Fld.u32 (s.settings.value q.setting), Fld.u32 q.value] (s.writeSetting q.setting q.value)

/-- SETTING_SET (R198). -/
def execSettingSet (tag : Byte) (r : Req SettingSet) (s : State) : Out :=
  s.request tag Code.settingSet r (fun q => s.settingSet tag q)

/-- SETTING_GET (R199); the range is its lowest and its highest value in 4 bytes each, and the last byte is the restriction in the present
mode (log entry 13). -/
def State.settingGet (s : State) (tag : Byte) (n : Nat) : State :=
  match settingRange n with
  | none => s.reply tag Code.settingGet .badField
  | some (lo, hi) =>
    s.reply tag Code.settingGet .ok
      [Fld.u32 (s.settings.value n), Fld.u32 lo, Fld.u32 hi, Fld.u32 (Settings.blank.value n),
        Fld.u8 (if s.compliant then settingRestriction n else 0)]

/-- SETTING_GET (R199). -/
def execSettingGet (tag : Byte) (r : Req Nat) (s : State) : Out :=
  s.request tag Code.settingGet r (fun n => s.settingGet tag n)

/-! ### Compliance mode -/

/-- A DEFINED class in use becomes LOCKED (R81). -/
def ClassRec.lock (r : ClassRec) : ClassRec :=
  match r.state with
  | .defined d => if 0 < r.inUse then { r with state := .locked d } else r
  | _ => r

/-- A LOCKED class becomes DEFINED (R81). -/
def ClassRec.unlock (r : ClassRec) : ClassRec :=
  match r.state with
  | .locked d => { r with state := .defined d }
  | _ => r

/-- COMPLIANCE_ENTER (R200, R81). -/
def State.complianceEnter (s : State) (tag : Byte) : State :=
  if s.compliant then s.reply tag Code.complianceEnter .unchanged
  else if s.slotFree = false then s.reply tag Code.complianceEnter .auditFull
  else
    let n := s.policy.classes.countP (fun e => decide (e.2.lock ≠ e.2))
    s.accept tag Code.complianceEnter .ok [] .complianceEntered [Fld.u32 n]
      { s with compliant := true, policy := { s.policy with classes := Table.mapVal ClassRec.lock s.policy.classes } }

/-- COMPLIANCE_ENTER (R200). -/
def execComplianceEnter (tag : Byte) (r : Req Unit) (s : State) : Out :=
  s.request tag Code.complianceEnter r (fun _ => s.complianceEnter tag)

/-- COMPLIANCE_LEAVE (R201, R81). -/
def State.complianceLeave (s : State) (tag : Byte) : State :=
  if s.compliant = false then s.reply tag Code.complianceLeave .unchanged
  else if 1 < s.index.next then s.reply tag Code.complianceLeave .notBlank
  else if s.slotFree = false then s.reply tag Code.complianceLeave .auditFull
  else
    s.accept tag Code.complianceLeave .ok [] .complianceLeft []
      { s with compliant := false, policy := { s.policy with classes := Table.mapVal ClassRec.unlock s.policy.classes } }

/-- COMPLIANCE_LEAVE (R201). -/
def execComplianceLeave (tag : Byte) (r : Req Unit) (s : State) : Out :=
  s.request tag Code.complianceLeave r (fun _ => s.complianceLeave tag)

/-! ### Notices -/

/-- NOTICE_CLEAR: the named flags become clear and the reply carries the mask after it (R196). Bits 12 to 15 name no kind
(log entry 15). -/
def State.noticeClear (s : State) (tag : Byte) (m : BitVec 16) : State :=
  let flags := s.link.flags &&& ~~~(m.setWidth 12)
  State.reply { s with link := { s.link with flags } } tag Code.noticeClear .ok [Fld.u16 flags.toNat]

/-- NOTICE_CLEAR (R196). -/
def execNoticeClear (tag : Byte) (r : Req (BitVec 16)) (s : State) : Out :=
  s.request tag Code.noticeClear r (fun m => s.noticeClear tag m)

/-! ### Reset, power, unknown requests and dropped frames -/

/-- RESET: the reply is formed before anything else of the request takes effect; the link reset follows once it has been sent
(R203, log entry 12). -/
def State.resetRequest (s : State) (tag : Byte) : State :=
  let t := s.reply tag Code.reset .ok
  { t with link := { t.link with resetTaken := true } }

/-- RESET (R203). -/
def execReset (tag : Byte) (r : Req Unit) (s : State) : Out :=
  s.request tag Code.reset r (fun _ => s.resetRequest tag)

/-- The reply to a RESET has been transmitted: the link reset is applied (R203). -/
def execLinkReset (s : State) : Out := s.event (if s.link.resetTaken then s.linkResetNow else s)

/-- A request whose code lies outside 0x01 to 0x2C is answered UNKNOWN_REQUEST with an empty payload (R192). -/
def execUnknownRequest (tag code : Byte) (s : State) : Out :=
  if s.taking ∧ (code.toNat = 0 ∨ 0x2C < code.toNat) then .next (s.reply tag code.toNat .unknownRequest) else .next s

/-- A frame that R191 drops has no effect. -/
def execFrameDropped (_bytes : List Byte) (s : State) : Out := .next s

/-- The release of PWR_GOOD starts a power-on, where the part has no power (R4, R203). -/
def execPowerOn (s : State) : Out := if s.powered then .next s else .next s.powerUp

/-- Power is removed: what is volatile is lost (R1, R155). -/
def State.powerDown (s : State) : State :=
  let t := s.calm false
  { t with link := { t.link with power := .off } }

/-- Power is removed (R1). -/
def execPowerLoss (s : State) : Out := .next s.powerDown

end Sys2Proof.Machine
end

