-- ==== Sys2Proof/Machine/MediaCmds.lean ====
section
/-! DEFINITION. The meanings of the Media Controller's commands (chapter 8): CHANNEL_STATUS, CHANNEL_PROBE, the completions and
timeouts of module operations, probes, restoration and the owed media records. -/

namespace Sys2Proof.Machine

/-! ### CHANNEL_STATUS and CHANNEL_PROBE -/

/-- The channel of a number, where there is one (R155). -/
def chanOf (n : Nat) : Option ChanNo := if h : n < 4 then some ⟨n, h⟩ else none

/-- An open zone of a channel with its write point, behind a presence byte. -/
def Channel.openFields (c : Channel) (st : ZoneState) : List Field :=
  match c.zoneIn st with
  | some z => [Fld.yes true, Fld.u16 z, Fld.u16 (c.zone z).wp]
  | none => [Fld.yes false, Fld.u16 0, Fld.u16 0]

/-- The erase condition with its zone, suspend count and suspend-failed mark (TABLE 8-4), those three behind one presence byte (log entry
13). It is that of an erase of the RECLAIM queue; while a probe's own ERASE is in flight it is none (DESIGN CHOICE, log entry 41). -/
def Channel.eraseFields (c : Channel) : List Field :=
  match c.erase with
  | none => [Fld.u8 0, Fld.yes false, Fld.u16 0, Fld.u32 0, Fld.yes false]
  | some e =>
    let k : Nat := match e.cond with | .running => 1 | .suspending => 2 | .suspended => 3 | .resuming => 4
    [Fld.u8 k, Fld.yes true, Fld.u16 e.zone, Fld.u32 e.count, Fld.yes e.failed]

/-- The stage of a probe, behind a presence byte. -/
def Channel.probeField (c : Channel) : List Field :=
  Fld.opt 1 (c.probe.map (fun p => match p.stage with | .waiting => 0 | .inFlight => 1 | .restoring => 2))

/-- The zones of a channel whose retirement is unrecorded (R172). -/
def Channel.owedZones (c : Channel) : List Nat := (c.zones.filter (fun e => e.2.owed)).map (·.1)

/-- The states of TABLE 8-2 that a data zone can have, in its order. -/
def zoneStates : List ZoneState := [.blank, .ingestOpen, .auditOpen, .full, .auditClosed, .reclaiming, .retired]

/-- The number of the channel's data zones in each of the eight zone states of TABLE 8-2, in its order: no data zone is PROBE. -/
def Channel.zoneCounts (c : Channel) : List Nat := zoneStates.map c.countZones ++ [0]

/-- The fields of a CHANNEL_STATUS reply in the order of R177. The eight zone counts and the four queue depths stand with no number of
entries before them (DESIGN CHOICE, log entry 13). -/
def State.channelFields (s : State) (i : ChanNo) : List Field :=
  let c := s.media.get i
  let f := s.media.freeZones
  [Fld.chanState c.state, Fld.yes c.markFenced] ++ c.zoneCounts.map Fld.u32 ++
    [Fld.u32 f, Fld.yes (decide (f < s.settings.throttle)), Fld.yes (decide (f ≤ s.settings.reserve))] ++
    c.openFields .ingestOpen ++ c.openFields .auditOpen ++ [Fld.u16 c.probeWp] ++
    [Fld.u32 c.auditQ.length, Fld.u32 c.ingestQ.length, Fld.u32 c.readQ.length, Fld.u32 c.reclaimQ.length, Fld.u32 c.stagingFree] ++
    c.eraseFields ++ [Fld.u32 c.fails] ++ c.probeField ++ [Fld.yes c.fenceOwed.isSome, Fld.u32 c.owedZones.length]

/-- CHANNEL_STATUS (R177). -/
def State.channelStatus (s : State) (tag : Byte) (n : Nat) : State :=
  match chanOf n with
  | none => s.reply tag Code.channelStatus .badField
  | some i => s.reply tag Code.channelStatus .ok (s.channelFields i)

/-- CHANNEL_STATUS (R177). -/
def execChannelStatus (tag : Byte) (r : Req Nat) (s : State) : Out :=
  s.request tag Code.channelStatus r (fun n => s.channelStatus tag n)

/-- CHANNEL_PROBE: an accepted probe waits for the module, and its reply is delayed (R175). -/
def State.channelProbe (s : State) (tag : Byte) (n : Nat) : State :=
  match chanOf n with
  | none => s.reply tag Code.channelProbe .badField
  | some i =>
    let c := s.media.get i
    if c.state = .inService then s.reply tag Code.channelProbe .badContext
    else if c.probe.isSome then s.reply tag Code.channelProbe .busy
    else s.setChan i { c with probe := some { tag, stage := .waiting } }

/-- CHANNEL_PROBE (R175). -/
def execChannelProbe (tag : Byte) (r : Req Nat) (s : State) : Out :=
  s.request tag Code.channelProbe r (fun n => s.channelProbe tag n)

/-! ### Probes -/

/-- A waiting probe takes the idle module: an ERASE of a probe zone that is used up, otherwise the PROGRAM of its page (R175). The
probe's ERASE makes no erase condition of TABLE 8-4: it is not suspended, and CHANNEL_STATUS shows none for it (DESIGN CHOICE, log entry
41). -/
def Channel.startProbe (c : Channel) : Channel :=
  let f : Channel := { c with probe := c.probe.map (fun p => { p with stage := .inFlight }) }
  if f.probeWp = Config.zonePages then { f with op := some .probeErase } else f.probeProgram

/-- PROBE_START, where a probe waits, the module is idle and no erase of the channel is suspended (R175). -/
def State.probeStart (s : State) (i : ChanNo) : State :=
  let c := s.media.get i
  if c.probeWaiting ∧ c.op = none ∧ c.erase = none then s.setChan i c.startProbe else s

/-- A waiting probe takes the module (R175). -/
def execProbeStart (ch : ChanNo) (s : State) : Out := s.event (s.probeStart ch)

/-- The channel's restoration after a probe: IN_SERVICE, mark and counts clear, a new round of credits (R176 (1)). -/
def State.restored (s : State) (i : ChanNo) : State :=
  let f : Channel := { s.media.get i with state := .inService, markFenced := false, fails := 0, probe := none }
  let t := s.setChan i f
  t.setChan i { f with credits := roundCredits t.settings t.media }

/-- CHANNEL_RESTORE, where a probe waits for its restoration, the fence record has been appended and an audit slot is free
(R176 (1)). -/
def State.channelRestore (s : State) (i : ChanNo) : State :=
  match (s.media.get i).probe with
  | some p =>
    if p.stage = .restoring ∧ (s.media.get i).fenceOwed = none ∧ s.slotFree then
      s.accept p.tag Code.channelProbe .matched [] .channelRestored [Fld.u8 i.val] (s.restored i)
    else s
  | none => s

/-- A channel is restored (R176). -/
def execChannelRestore (ch : ChanNo) (s : State) : Out := s.event (s.channelRestore ch)

/-! ### Owed media records -/

/-- The channels whose fence record is owed, with the cause, in channel order (R174). -/
def Media.owedFences (m : Media) : List (ChanNo × FenceCause) :=
  chanNos.filterMap (fun i => (m.get i).fenceOwed.map (fun c => (i, c)))

/-- The zones whose retirement record is owed, in channel and zone order (R174). -/
def Media.owedRetirements (m : Media) : List (ChanNo × Nat) :=
  (chanNos.map (fun i => (m.get i).owedZones.map (fun z => (i, z)))).flatten

/-- The byte of a fence's cause (R204). -/
def FenceCause.code : FenceCause → Nat
  | .programFails => 0
  | .timeout => 1

/-- One owed record is appended and its flag cleared, where a slot is free: fences first, then retirements (R174). -/
def State.owedRecord (s : State) : State :=
  if s.slotFree = false then s
  else
    match s.media.owedFences, s.media.owedRetirements with
    | (i, k) :: _, _ =>
      let t := s.setChan i { s.media.get i with fenceOwed := none }
      State.closeEvent s (t.append .channelFenced [Fld.u8 i.val, Fld.u8 k.code])
    | [], (i, z) :: _ =>
      let c := s.media.get i
      let t := s.setChan i (c.setZone z { c.zone z with owed := false })
      State.closeEvent s (t.append .zoneRetired [Fld.u8 i.val, Fld.u16 z])
    | [], [] => s

/-- An owed media record is appended (R174). -/
def execOwedMediaRecord (s : State) : Out := s.event s.owedRecord

/-! ### PROGRAM -/

/-- How a completion or timeout of a module is taken: while the part has power, since modules also complete during the
start-up of a link reset (R178 (2)). -/
def State.module (s : State) (effect : State) : Out := if s.powered then .next effect else .next s

/-- The channel with no operation in flight. -/
def Channel.idle (c : Channel) : Channel := { c with op := none }

/-- The upload that a staged page belongs to: none for a page that a reset, a withdrawal or a failure has left behind (R162). -/
def Channel.uploadOf (c : Channel) (p : StagePage) (staged : Bool) : Option Upload :=
  if staged then c.uploads.find? (fun u => u.has p.zone p.page) else none

/-- One more page of an upload has passed; the last makes owner success (R162, R34, R59). -/
def State.pagePassed (s : State) (i : ChanNo) (u : Upload) : State :=
  let c := s.media.get i
  if u.passed + 1 = u.count then
    State.ownerSuccess (s.setChan i { c with uploads := c.uploads.filter (fun v => v != u) }) u.ref
  else s.setChan i { c with uploads := c.uploads.map (fun v => if v = u then { v with passed := v.passed + 1 } else v) }

/-- The PROGRAM of an ingest page has completed (R162, R170 (1), log entry 20). -/
def State.ingestDone (s : State) (i : ChanNo) (p : StagePage) (staged pass : Bool) : State :=
  let c := s.media.get i
  let u := c.uploadOf p staged
  if pass then
    let t := s.setChan i { c.idle with fails := 0 }
    match u with
    | some u => t.pagePassed i u
    | none => t
  else
    let t := s.setChan i c.idle
    let t' := match u with | some u => t.uploadFails i u | none => t
    t'.countFail i

/-- The PROGRAM of an audit page has completed (R185 (1), R186, R170 (2)). -/
def State.auditDone (s : State) (i : ChanNo) (zone page : Nat) (p : AuditPage) (live pass : Bool) : State :=
  let c := s.media.get i
  if pass then
    let t := s.setChan i { c.idle with fails := 0 }
    if live then { t with audit := t.audit.passed p i zone page } else t
  else
    State.countFail (s.setChan i { c.idle with auditQ := if live then p :: c.auditQ else c.auditQ }) i

/-- The PROGRAM of a probe's page has completed: its READ is issued on PASS (R175 (3), R176 (3)). -/
def State.probeProgrammed (s : State) (i : ChanNo) (page : Nat) (pass : Bool) : State :=
  let c := s.media.get i
  if pass then s.setChan i { c with op := if c.probing then some (.probeRead page) else none } else s.probeFail i

/-- PROGRAM_COMPLETE (R170), taken as that of the PROGRAM in flight, whichever it is (DESIGN CHOICE, log entry 43). An ingest page's PASS
may make a context join the commit-ready list, and an audit page's PASS frees audit slots: what then may commit commits at that event,
after the reports of the slots that became READY (R40, R181). -/
def State.programComplete (s : State) (i : ChanNo) (pass : Bool) : State :=
  match (s.media.get i).op with
  | some (.programIngest p staged) => State.finish s (s.ingestDone i p staged pass).commitReady
  | some (.programAudit z n p live) => State.finish s (s.auditDone i z n p live pass).commitReady
  | some (.probeProgram n) => State.closeEvent s (s.probeProgrammed i n pass)
  | _ => s

/-- A PROGRAM completes (R170). -/
def execProgramComplete (ch : ChanNo) (pass : Bool) (s : State) : Out := s.module (s.programComplete ch pass)

/-! ### READ -/

/-- What a page read brings, with the page's bytes on PASS (TABLE 8-1). -/
def readResult : Option (List Byte) → ReadResult
  | some bs => .pass bs
  | none => .fail

/-- READ_COMPLETE (R164), taken as that of the READ in flight, whichever it is (DESIGN CHOICE, log entry 43); a probe's page is compared
with what was programmed (R175 (3)). -/
def State.readComplete (s : State) (i : ChanNo) (res : Option (List Byte)) : State :=
  let c := s.media.get i
  match c.op with
  | some (.read r) => State.closeEvent s ((s.setChan i c.idle).finishRead r.who (readResult res))
  | some (.probeRead n) =>
    match res with
    | some bs => State.closeEvent s (s.probeReadBack i n bs)
    | none => State.closeEvent s (s.probeFail i)
  | _ => s

/-- A READ completes (R164). -/
def execReadComplete (ch : ChanNo) (result : Option (List Byte)) (s : State) : Out := s.module (s.readComplete ch result)

/-! ### ERASE, SUSPEND and RESUME -/

/-- A failed erase makes its zone RETIRED with the record owed (R172). -/
def Channel.retire (c : Channel) (z : Nat) : Channel :=
  let f := c.setZone z { c.zone z with state := .retired, owed := true }
  { f with erase := none, op := none }

/-- An erase that passed makes its zone BLANK (R165). -/
def Channel.erased (c : Channel) (z : Nat) : Channel :=
  let f := c.setZone z Zone.blank
  { f with erase := none, op := none }

/-- The probe's ERASE has completed: its PASS sets the write point of the probe zone to 0, and the page is programmed
(R175 (1)). -/
def State.probeErased (s : State) (i : ChanNo) (pass : Bool) : State :=
  let c := s.media.get i
  if pass then
    let f : Channel := { c with probeWp := 0, op := none }
    s.setChan i (if c.probing then f.probeProgram else f)
  else s.probeFail i

/-- ERASE_COMPLETE (R165, R172), taken as that of the ERASE in flight, whichever it is (DESIGN CHOICE, log entry 43). While a SUSPEND or a
RESUME of the erase is in flight, or the erase is SUSPENDED, the module's operation is not the ERASE and the completion is discarded:
R168, R169 and section 8.12 give no outcome for an erase that ends while its SUSPEND is in flight (DESIGN CHOICE, log entry 43). -/
def State.eraseComplete (s : State) (i : ChanNo) (pass : Bool) : State :=
  let c := s.media.get i
  match c.op with
  | some (.erase z) => State.closeEvent s (s.setChan i (if pass then c.erased z else c.retire z))
  | some .probeErase => State.closeEvent s (s.probeErased i pass)
  | _ => s

/-- An ERASE completes (R165). -/
def execEraseComplete (ch : ChanNo) (pass : Bool) (s : State) : Out := s.module (s.eraseComplete ch pass)

/-- SUSPEND_COMPLETE: SUSPENDED on PASS; on FAIL the erase goes on with the suspend-failed mark set (R168). It is taken as that of the
SUSPEND in flight (DESIGN CHOICE, log entry 43). -/
def State.suspendComplete (s : State) (i : ChanNo) (pass : Bool) : State :=
  let c := s.media.get i
  match c.op, c.erase with
  | some .suspend, some e =>
    State.closeEvent s (s.setChan i
      (if pass then { c with op := none, erase := some { e with cond := .suspended } }
        else { c with op := some (.erase e.zone), erase := some { e with cond := .running, failed := true } }))
  | _, _ => s

/-- A SUSPEND completes (R168). -/
def execSuspendComplete (ch : ChanNo) (pass : Bool) (s : State) : Out := s.module (s.suspendComplete ch pass)

/-- The erase runs again after a RESUME PASS, and may be suspended at once (R169, R168). -/
def Channel.resumed (c : Channel) (e : Erase) : Channel :=
  let f : Channel := { c with op := some (.erase e.zone), erase := some { e with cond := .running } }
  f.suspendCheck

/-- RESUME_COMPLETE: RUNNING on PASS, the erase taken as failed on FAIL (R169, R172). It is taken as that of the RESUME in flight (DESIGN
CHOICE, log entry 43). -/
def State.resumeComplete (s : State) (i : ChanNo) (pass : Bool) : State :=
  let c := s.media.get i
  match c.op, c.erase with
  | some .resume, some e => State.closeEvent s (s.setChan i (if pass then c.resumed e else c.retire e.zone))
  | _, _ => s

/-- A RESUME completes (R169). -/
def execResumeComplete (ch : ChanNo) (pass : Bool) (s : State) : Out := s.module (s.resumeComplete ch pass)

/-! ### IDENTIFY and timeouts -/

/-- The channels whose IDENTIFY start-up waits for, with the cause of the start-up: none once start-up has ended. -/
def State.awaiting (s : State) : Option (List ChanNo × StartCause) :=
  match s.link.power with
  | .starting cs k => some (cs, k)
  | _ => none

/-- A module does not answer, or an operation times out: at start-up by R178 (1), afterwards by R173. An IDENTIFY of an earlier link
reset's late question that is still in flight at a second link reset is such an operation: its FAIL takes the channel OFFLINE here and the
module is not asked again, while its PASS has it asked again, as at the end of any operation in flight. R178 (1) can be read either way
for it (DESIGN CHOICE, log entry 30). -/
def State.silent (s : State) (i : ChanNo) : State :=
  match s.awaiting with
  | some (cs, k) => if i ∈ cs then s.identified cs k i false else State.finish s (s.goOffline i)
  | none => State.finish s (s.goOffline i)

/-- A module answers IDENTIFY (R178 (1)). -/
def State.answers (s : State) (i : ChanNo) : State :=
  match s.awaiting with
  | some (cs, k) => if i ∈ cs then s.identified cs k i true else State.closeEvent s (s.setChan i (s.media.get i).idle)
  | none => State.closeEvent s (s.setChan i (s.media.get i).idle)

/-- IDENTIFY_COMPLETE (R178), taken as that of the IDENTIFY in flight (DESIGN CHOICE, log entry 43). -/
def State.identifyComplete (s : State) (i : ChanNo) (pass : Bool) : State :=
  match (s.media.get i).op with
  | some .identify => if pass then s.answers i else s.silent i
  | _ => s

/-- An IDENTIFY completes (R178). -/
def execIdentifyComplete (ch : ChanNo) (pass : Bool) (s : State) : Out := s.module (s.identifyComplete ch pass)

/-- OPERATION_TIMEOUT, where an operation is in flight (R173). -/
def State.operationTimeout (s : State) (i : ChanNo) : State := if (s.media.get i).op.isSome then s.silent i else s

/-- An operation reaches its time limit (R173). -/
def execOperationTimeout (ch : ChanNo) (s : State) : Out := s.module (s.operationTimeout ch)

end Sys2Proof.Machine
end

