-- ==== Sys2Proof/Machine/PolicyCmds.lean ====
section
/-! DEFINITION. The meanings of the Policy Unit's requests (chapter 4): classes, domains, the policy list and the archive flags. -/

namespace Sys2Proof.Machine

/-! ### CLASS_SET -/

/-- The fields of a definition lie in their ranges (R74). -/
def inRangeDef (d : ClassDef) : Bool := decide (d.py ≤ 150 ∧ d.pm ≤ 11 ∧ d.pd ≤ 999 ∧ d.fd ≤ 3650)

/-- A new definition lengthens an old one (R76). -/
def lengthens (old new : ClassDef) : Bool :=
  decide (new.anchor = old.anchor) && (!old.permanent || new.permanent) &&
    decide (old.py ≤ new.py ∧ old.pm ≤ new.pm ∧ old.pd ≤ new.pd ∧ old.fd ≤ new.fd)

/-- The state of a class after an accepted CLASS_SET (R75). -/
def ClassState.write (d : ClassDef) : ClassState → ClassState
  | .locked _ => .locked d
  | _ => .defined d

/-- A class is LOCKED under a definition that the new one does not lengthen (R75 (2)). -/
def ClassState.refuses (new : ClassDef) : ClassState → Bool
  | .locked old => !lengthens old new
  | _ => false

/-- The sweep a change of a class in use needs (R77). -/
def classSweeps (r : ClassRec) (c : Nat) : List SweepReq := if 0 < r.inUse then [.cls c] else []

/-- The answer a CLASS sweep receives, or not needed (R77). -/
def State.classAnswer (s : State) (c : Nat) : SweepAnswer :=
  if 0 < (s.policy.cls c).inUse then s.index.answerOf (.cls c) else .notNeeded

/-- The checks of R75: the first refusal that applies. -/
def State.classCheck (s : State) (q : ClassSet) : Option Status :=
  let r := s.policy.cls q.cls
  if Config.classes ≤ q.cls ∨ inRangeDef q.defn = false then some .badField
  else if r.state.refuses q.defn then some .locked
  else if r.state.defn = some q.defn then some .unchanged
  else if s.index.admits (classSweeps r q.cls) = false then some .sweepFull
  else if s.slotFree = false then some .auditFull
  else none

/-- CLASS_SET (R75, R77). -/
def State.classSet (s : State) (tag : Byte) (q : ClassSet) : State :=
  match s.classCheck q with
  | some st => s.reply tag Code.classSet st
  | none =>
    let r := s.policy.cls q.cls
    let n : ClassRec := { r with state := r.state.write q.defn }
    s.accept tag Code.classSet .ok (Fld.classStateDef n.state ++ [Fld.u32 n.inUse]) .classChanged
      ([Fld.u8 q.cls] ++ Fld.classStateDef r.state ++ Fld.classDef q.defn ++ [Fld.u8 (s.classAnswer q.cls).code])
      { s with policy := s.policy.setCls q.cls n, index := s.index.enqueue (classSweeps r q.cls) }

/-- CLASS_SET (R75). -/
def execClassSet (tag : Byte) (r : Req ClassSet) (s : State) : Out :=
  s.request tag Code.classSet r (fun q => s.classSet tag q)

/-! ### CLASS_CLEAR and CLASS_READ -/

/-- The domain numbers. -/
def domainNos : List Nat := List.range Config.domains

/-- The set of ACTIVE domains that name a class as their fallback (R79). -/
def Policy.fallbackOf (p : Policy) (c : Nat) : List Nat :=
  domainNos.filter (fun d => (p.domain d).active && decide ((p.domain d).fallback = some c))

/-- The mask of a list of numbers below 16: number n is the bit of value 2^n (log entry 39). -/
def maskOf16 (ns : List Nat) : Nat := (ns.map (fun n => 2 ^ n)).sum

/-- CLASS_CLEAR (R78). -/
def State.classClear (s : State) (tag : Byte) (c : Nat) : State :=
  let r := s.policy.cls c
  if Config.classes ≤ c then s.reply tag Code.classClear .badField
  else
    match r.state with
    | .undefined => s.reply tag Code.classClear .unchanged
    | .locked _ => s.reply tag Code.classClear .locked
    | .defined d =>
      if 0 < r.inUse ∨ s.policy.fallbackOf c ≠ [] then s.reply tag Code.classClear .inUse
      else if s.slotFree = false then s.reply tag Code.classClear .auditFull
      else
        s.accept tag Code.classClear .ok [] .classCleared (Fld.u8 c :: Fld.classDef d)
          { s with policy := s.policy.setCls c { r with state := .undefined } }

/-- CLASS_CLEAR (R78). -/
def execClassClear (tag : Byte) (r : Req Nat) (s : State) : Out :=
  s.request tag Code.classClear r (fun c => s.classClear tag c)

/-- CLASS_READ (R79). -/
def State.classRead (s : State) (tag : Byte) (c : Nat) : State :=
  if Config.classes ≤ c then s.reply tag Code.classRead .badField
  else
    let r := s.policy.cls c
    s.reply tag Code.classRead .ok
      (Fld.classStateDef r.state ++ [Fld.u32 r.inUse, Fld.u16 (maskOf16 (s.policy.fallbackOf c))])

/-- CLASS_READ (R79). -/
def execClassRead (tag : Byte) (r : Req Nat) (s : State) : Out :=
  s.request tag Code.classRead r (fun c => s.classRead tag c)

/-! ### DOMAIN_SET and DOMAIN_READ -/

/-- The record a DOMAIN_SET writes: the fallback class is ignored when the state is UNUSED (R83). -/
def domainRecOf (q : DomainSet) : DomainRec where
  active := q.active
  group := q.group
  fallback := if q.active then some q.fallback else none
  start := q.start
  backdate := q.backdate

/-- A field of a DOMAIN_SET lies outside its range (R83 (1)). -/
def badDomain (q : DomainSet) : Bool :=
  decide (Config.domains ≤ q.domain ∨ Config.groups ≤ q.group ∨ (q.active ∧ Config.classes ≤ q.fallback) ∨
    Config.policyEntries ≤ q.start ∨ 3650 < q.backdate)

/-- The checks of R83: the first refusal that applies. -/
def State.domainCheck (s : State) (q : DomainSet) : Option Status :=
  let old := s.policy.domain q.domain
  if badDomain q then some .badField
  else if q.active ∧ (s.policy.cls q.fallback).state = .undefined then some .badField
  else if s.compliant ∧ (old.backdate < q.backdate ∨ (old.active ∧ q.active = false)) then some .mode
  else if q.active = false ∧ 0 < s.ingest.openIn q.domain then some .inUse
  else if domainRecOf q = old then some .unchanged
  else if s.slotFree = false then some .auditFull
  else none

/-- DOMAIN_SET (R83, R84). -/
def State.domainSet (s : State) (tag : Byte) (q : DomainSet) : State :=
  match s.domainCheck q with
  | some st => s.reply tag Code.domainSet st
  | none =>
    s.accept tag Code.domainSet .ok (Fld.domainRec (domainRecOf q)) .domainChanged
      (Fld.u8 q.domain :: (Fld.domainRec (s.policy.domain q.domain) ++ Fld.domainRec (domainRecOf q)))
      { s with policy := s.policy.setDomain q.domain (domainRecOf q) }

/-- DOMAIN_SET (R83). -/
def execDomainSet (tag : Byte) (r : Req DomainSet) (s : State) : Out :=
  s.request tag Code.domainSet r (fun q => s.domainSet tag q)

/-- DOMAIN_READ (R84). -/
def State.domainRead (s : State) (tag : Byte) (d : Nat) : State :=
  if Config.domains ≤ d then s.reply tag Code.domainRead .badField
  else s.reply tag Code.domainRead .ok (Fld.domainRec (s.policy.domain d) ++ [Fld.u32 (s.ingest.openIn d)])

/-- DOMAIN_READ (R84). -/
def execDomainRead (tag : Byte) (r : Req Nat) (s : State) : Out :=
  s.request tag Code.domainRead r (fun d => s.domainRead tag d)

/-! ### The policy list -/

/-- A test's operand lies in the range of TABLE 4-2. -/
def inRangeTest : PolicyTest → Bool
  | .domain d => decide (d ≤ 15)
  | .tag n => decide (n ≤ 31)
  | .partiesAtLeast n => decide (n ≤ 128)
  | .segmentsAtLeast n => decide (n ≤ 256)
  | .sizeAtLeast k => decide (k ≤ 4194304)
  | .itemFlag f => decide (f ≤ 7)
  | .archiveFlag f => decide (f ≤ 7)
  | .always => true
  | .hasEventKey => true
  | .anyCustodian => true

/-- An action's operand lies in the range of TABLE 4-3. -/
def inRangeAction : PolicyAction → Bool
  | .cls c => decide (c ≤ 63)
  | .goto e => decide (e ≤ 511)
  | .call e => decide (e ≤ 511)
  | .flags _ _ => true
  | .ret => true
  | .stop => true

/-- A policy entry's operands lie in their ranges (R86 (1)). -/
def inRangeEntry : PolicyEntry → Bool
  | .unused => true
  | .used t _ a => inRangeTest t && inRangeAction a

/-- The checks of POLICY_WRITE: the first refusal that applies (R86). -/
def State.policyCheck (s : State) (q : PolicyWrite) : Option Status :=
  if Config.policyEntries ≤ q.entry ∨ inRangeEntry q.content = false then some .badField
  else if q.content = s.policy.entry q.entry then some .unchanged
  else if s.slotFree = false then some .auditFull
  else none

/-- POLICY_WRITE (R86). -/
def State.policyWrite (s : State) (tag : Byte) (q : PolicyWrite) : State :=
  match s.policyCheck q with
  | some st => s.reply tag Code.policyWrite st
  | none =>
    s.accept tag Code.policyWrite .ok [] .policyChanged
      (Fld.u16 q.entry :: (Fld.policyEntry (s.policy.entry q.entry) ++ Fld.policyEntry q.content))
      { s with policy := { s.policy with entries := Table.set .unused s.policy.entries q.entry q.content } }

/-- POLICY_WRITE (R86). -/
def execPolicyWrite (tag : Byte) (r : Req PolicyWrite) (s : State) : Out :=
  s.request tag Code.policyWrite r (fun q => s.policyWrite tag q)

/-- POLICY_READ (R86). -/
def State.policyRead (s : State) (tag : Byte) (e : Nat) : State :=
  if Config.policyEntries ≤ e then s.reply tag Code.policyRead .badField
  else s.reply tag Code.policyRead .ok (Fld.policyEntry (s.policy.entry e))

/-- POLICY_READ (R86). -/
def execPolicyRead (tag : Byte) (r : Req Nat) (s : State) : Out :=
  s.request tag Code.policyRead r (fun e => s.policyRead tag e)

/-! ### ARCHIVE_FLAGS -/

/-- ARCHIVE_FLAGS (R85). -/
def State.archiveFlags (s : State) (tag : Byte) (q : FlagMasks) : State :=
  let old := s.policy.flags
  let new := maskFlags old q.set q.clear
  if new = old then s.reply tag Code.archiveFlags .unchanged [Fld.u8 old.toNat]
  else if s.slotFree = false then s.reply tag Code.archiveFlags .auditFull
  else
    s.accept tag Code.archiveFlags .ok [Fld.u8 new.toNat] .flagsChanged [Fld.u8 old.toNat, Fld.u8 new.toNat]
      { s with policy := { s.policy with flags := new } }

/-- ARCHIVE_FLAGS (R85). -/
def execArchiveFlags (tag : Byte) (r : Req FlagMasks) (s : State) : Out :=
  s.request tag Code.archiveFlags r (fun q => s.archiveFlags tag q)

end Sys2Proof.Machine
end

