-- ==== Sys2Proof/Machine/Dispatch.lean ====
section
/-! DEFINITION. The meaning of every command: one arm per row of spec/opcode_table.json, each a direct call of its meaning. -/

namespace Sys2Proof.Machine

def exec (i : Instr) (s : State) : Host.Outcome State Fault Refusal :=
  match i with
  | .itemOpen tag r => Sys2Proof.Machine.execItemOpen tag r s
  | .segDeclare tag r => Sys2Proof.Machine.execSegDeclare tag r s
  | .segData tag r => Sys2Proof.Machine.execSegData tag r s
  | .itemCommit tag r => Sys2Proof.Machine.execItemCommit tag r s
  | .itemAbort tag r => Sys2Proof.Machine.execItemAbort tag r s
  | .itemRead tag r => Sys2Proof.Machine.execItemRead tag r s
  | .itemSegments tag r => Sys2Proof.Machine.execItemSegments tag r s
  | .segRead tag r => Sys2Proof.Machine.execSegRead tag r s
  | .segVerify tag r => Sys2Proof.Machine.execSegVerify tag r s
  | .clockRead tag r => Sys2Proof.Machine.execClockRead tag r s
  | .clockSet tag r => Sys2Proof.Machine.execClockSet tag r s
  | .clockAdjust tag r => Sys2Proof.Machine.execClockAdjust tag r s
  | .classSet tag r => Sys2Proof.Machine.execClassSet tag r s
  | .classClear tag r => Sys2Proof.Machine.execClassClear tag r s
  | .classRead tag r => Sys2Proof.Machine.execClassRead tag r s
  | .domainSet tag r => Sys2Proof.Machine.execDomainSet tag r s
  | .domainRead tag r => Sys2Proof.Machine.execDomainRead tag r s
  | .policyWrite tag r => Sys2Proof.Machine.execPolicyWrite tag r s
  | .policyRead tag r => Sys2Proof.Machine.execPolicyRead tag r s
  | .archiveFlags tag r => Sys2Proof.Machine.execArchiveFlags tag r s
  | .eventPost tag r => Sys2Proof.Machine.execEventPost tag r s
  | .eventRead tag r => Sys2Proof.Machine.execEventRead tag r s
  | .sweepStatus tag r => Sys2Proof.Machine.execSweepStatus tag r s
  | .matterOpen tag r => Sys2Proof.Machine.execMatterOpen tag r s
  | .matterAmend tag r => Sys2Proof.Machine.execMatterAmend tag r s
  | .matterClose tag r => Sys2Proof.Machine.execMatterClose tag r s
  | .matterRead tag r => Sys2Proof.Machine.execMatterRead tag r s
  | .custodianSet tag r => Sys2Proof.Machine.execCustodianSet tag r s
  | .custodianFind tag r => Sys2Proof.Machine.execCustodianFind tag r s
  | .custodianRead tag r => Sys2Proof.Machine.execCustodianRead tag r s
  | .dispoList tag r => Sys2Proof.Machine.execDispoList tag r s
  | .dispoRelease tag r => Sys2Proof.Machine.execDispoRelease tag r s
  | .dispoStatus tag r => Sys2Proof.Machine.execDispoStatus tag r s
  | .channelStatus tag r => Sys2Proof.Machine.execChannelStatus tag r s
  | .channelProbe tag r => Sys2Proof.Machine.execChannelProbe tag r s
  | .auditRead tag r => Sys2Proof.Machine.execAuditRead tag r s
  | .auditHead tag r => Sys2Proof.Machine.execAuditHead tag r s
  | .identify tag r => Sys2Proof.Machine.execIdentify tag r s
  | .settingSet tag r => Sys2Proof.Machine.execSettingSet tag r s
  | .settingGet tag r => Sys2Proof.Machine.execSettingGet tag r s
  | .complianceEnter tag r => Sys2Proof.Machine.execComplianceEnter tag r s
  | .complianceLeave tag r => Sys2Proof.Machine.execComplianceLeave tag r s
  | .noticeClear tag r => Sys2Proof.Machine.execNoticeClear tag r s
  | .reset tag r => Sys2Proof.Machine.execReset tag r s
  | .unknownRequest tag code => Sys2Proof.Machine.execUnknownRequest tag code s
  | .frameDropped bytes => Sys2Proof.Machine.execFrameDropped bytes s
  | .powerOn => Sys2Proof.Machine.execPowerOn s
  | .powerLoss => Sys2Proof.Machine.execPowerLoss s
  | .timeBaseSecond => Sys2Proof.Machine.execTimeBaseSecond s
  | .holdEnd => Sys2Proof.Machine.execHoldEnd s
  | .dayRollover => Sys2Proof.Machine.execDayRollover s
  | .dayRolloverUnpowered => Sys2Proof.Machine.execDayRolloverUnpowered s
  | .timeBaseLoss => Sys2Proof.Machine.execTimeBaseLoss s
  | .contextTimeout ctx => Sys2Proof.Machine.execContextTimeout ctx s
  | .deferredCommit => Sys2Proof.Machine.execDeferredCommit s
  | .holdSweepStep => Sys2Proof.Machine.execHoldSweepStep s
  | .classSweepStep => Sys2Proof.Machine.execClassSweepStep s
  | .eventSweepStep => Sys2Proof.Machine.execEventSweepStep s
  | .sweepCompletion => Sys2Proof.Machine.execSweepCompletion s
  | .dueProcessing => Sys2Proof.Machine.execDueProcessing s
  | .autoRelease => Sys2Proof.Machine.execAutoRelease s
  | .disposalEvent => Sys2Proof.Machine.execDisposalEvent s
  | .programComplete ch pass => Sys2Proof.Machine.execProgramComplete ch pass s
  | .readComplete ch result => Sys2Proof.Machine.execReadComplete ch result s
  | .eraseComplete ch pass => Sys2Proof.Machine.execEraseComplete ch pass s
  | .suspendComplete ch pass => Sys2Proof.Machine.execSuspendComplete ch pass s
  | .resumeComplete ch pass => Sys2Proof.Machine.execResumeComplete ch pass s
  | .identifyComplete ch pass => Sys2Proof.Machine.execIdentifyComplete ch pass s
  | .operationTimeout ch => Sys2Proof.Machine.execOperationTimeout ch s
  | .probeStart ch => Sys2Proof.Machine.execProbeStart ch s
  | .channelRestore ch => Sys2Proof.Machine.execChannelRestore ch s
  | .owedMediaRecord => Sys2Proof.Machine.execOwedMediaRecord s
  | .startUpRecord => Sys2Proof.Machine.execStartUpRecord s
  | .auditPageWait => Sys2Proof.Machine.execAuditPageWait s
  | .verifyReadQueued ch => Sys2Proof.Machine.execVerifyReadQueued ch s
  | .linkReset => Sys2Proof.Machine.execLinkReset s

end Sys2Proof.Machine
end

