-- ==== Sys2Proof/Machine/Step.lean ====
section
/-! DEFINITION. One step of the part: the command at the front of the queue is taken and runs on the state with the queue's rest; on
an empty queue the part idles (log entry 4). -/

namespace Sys2Proof.Machine

/-- One step. -/
def step (s : State) : Host.Outcome State Fault Refusal :=
  match s.pending with
  | [] => .next s
  | c :: cs => exec c { s with pending := cs }

/-- The state with the command that a table word spells at the front of its queue; unchanged where the word spells none. -/
def State.withFetchWord (s : State) (nbits w : Nat) : State :=
  match decodeTableWord nbits w with
  | none => s
  | some c => { s with pending := c :: s.pending }

/-- The state with the command of a frame's bytes at the end of its queue: what the receiver does at a frame's end (R191). -/
def State.withFrame (s : State) (bytes : List Byte) : State := { s with pending := s.pending ++ [receive bytes] }

end Sys2Proof.Machine
end

