-- ==== Sys2Proof/Safety.lean ====
section
/-! DEFINITION. The terms in which claims about the part are stated: the blocks of the state and what a command may change of them,
the reply of a request and the record of an event, and the invariants that every step keeps. -/

namespace Sys2Proof.Machine

/-! ### Blocks and frames -/

/-- The parts of the state, one for each field. -/
inductive Block where
  | clock | timer | ingest | segs | policy | index | hold | dispo | media | audit | link | settings | compliance | queue
deriving DecidableEq, Repr

/-- Two states agree in a block. -/
def Block.same (s t : State) : Block → Prop
  | .clock => t.clock = s.clock
  | .timer => t.timer = s.timer
  | .ingest => t.ingest = s.ingest
  | .segs => t.segs = s.segs
  | .policy => t.policy = s.policy
  | .index => t.index = s.index
  | .hold => t.hold = s.hold
  | .dispo => t.dispo = s.dispo
  | .media => t.media = s.media
  | .audit => t.audit = s.audit
  | .link => t.link = s.link
  | .settings => t.settings = s.settings
  | .compliance => t.compliant = s.compliant
  | .queue => t.pending = s.pending

/-- Every block outside a list is as it was. -/
def KeepsAllBut (bs : List Block) (s t : State) : Prop := ∀ b, b ∉ bs → b.same s t

/-- What the append of an audit record may change: the HWM, the trail, and with it the drain and the notices. -/
def recordBlocks : List Block := [.clock, .media, .audit, .link]

/-- What a start-up may change. -/
def startBlocks : List Block := [.clock, .ingest, .segs, .index, .dispo, .media, .audit, .link]

/-- What an event of the uploads may change. -/
def uploadBlocks : List Block := [.ingest, .segs, .media, .audit, .link]

/-- What a commit may change. -/
def commitBlocks : List Block := [.clock, .ingest, .segs, .policy, .index, .media, .audit, .link]

/-- The blocks each command may change. -/
def touches : Instr → List Block
  | .itemOpen _ _ => [.ingest, .index, .link]
  | .segDeclare _ _ => uploadBlocks
  | .segData _ _ => uploadBlocks
  | .itemCommit _ _ => commitBlocks
  | .itemAbort _ _ => uploadBlocks
  | .itemRead _ _ => [.link]
  | .itemSegments _ _ => [.link]
  | .segRead _ _ => [.segs, .media, .audit, .link]
  | .segVerify _ _ => [.segs, .media, .audit, .link]
  | .clockRead _ _ => [.clock, .link]
  | .clockSet _ _ => .dispo :: recordBlocks
  | .clockAdjust _ _ => .dispo :: recordBlocks
  | .classSet _ _ => .policy :: .index :: recordBlocks
  | .classClear _ _ => .policy :: recordBlocks
  | .classRead _ _ => [.link]
  | .domainSet _ _ => .policy :: recordBlocks
  | .domainRead _ _ => [.link]
  | .policyWrite _ _ => .policy :: recordBlocks
  | .policyRead _ _ => [.link]
  | .archiveFlags _ _ => .policy :: recordBlocks
  | .eventPost _ _ => .index :: recordBlocks
  | .eventRead _ _ => [.link]
  | .sweepStatus _ _ => [.link]
  | .matterOpen _ _ => .hold :: .index :: recordBlocks
  | .matterAmend _ _ => .hold :: .index :: recordBlocks
  | .matterClose _ _ => .hold :: .index :: recordBlocks
  | .matterRead _ _ => [.link]
  | .custodianSet _ _ => .hold :: .index :: recordBlocks
  | .custodianFind _ _ => [.link]
  | .custodianRead _ _ => [.link]
  | .dispoList _ _ => [.link]
  | .dispoRelease _ _ => .index :: .dispo :: recordBlocks
  | .dispoStatus _ _ => [.link]
  | .channelStatus _ _ => [.link]
  | .channelProbe _ _ => [.media, .link]
  | .auditRead _ _ => [.media, .audit, .link]
  | .auditHead _ _ => [.link]
  | .identify _ _ => [.link]
  | .settingSet _ _ => .settings :: .dispo :: recordBlocks
  | .settingGet _ _ => [.link]
  | .complianceEnter _ _ => .compliance :: .policy :: recordBlocks
  | .complianceLeave _ _ => .compliance :: .policy :: recordBlocks
  | .noticeClear _ _ => [.link]
  | .reset _ _ => [.link]
  | .unknownRequest _ _ => [.link]
  | .frameDropped _ => []
  | .powerOn => startBlocks
  | .powerLoss => [.ingest, .segs, .dispo, .media, .audit, .link]
  | .timeBaseSecond => [.clock, .timer, .dispo, .link]
  | .holdEnd => [.clock, .timer, .dispo, .link]
  | .dayRollover => [.clock, .timer, .dispo, .link]
  | .dayRolloverUnpowered => [.clock, .timer, .dispo, .link]
  | .timeBaseLoss => [.clock, .link]
  | .contextTimeout _ => .timer :: uploadBlocks
  | .deferredCommit => commitBlocks
  | .holdSweepStep => [.index, .dispo]
  | .classSweepStep => [.index, .dispo]
  | .eventSweepStep => [.index, .dispo]
  | .sweepCompletion => .index :: .hold :: recordBlocks
  | .dueProcessing => [.index, .dispo, .link]
  | .autoRelease => .index :: .dispo :: recordBlocks
  | .disposalEvent => .segs :: .policy :: .index :: .dispo :: recordBlocks
  | .programComplete _ _ => commitBlocks
  | .readComplete _ _ => [.segs, .media, .audit, .link]
  | .eraseComplete _ _ => [.media, .audit, .link]
  | .suspendComplete _ _ => [.media, .audit, .link]
  | .resumeComplete _ _ => [.media, .audit, .link]
  | .identifyComplete _ _ => startBlocks
  | .operationTimeout _ => startBlocks
  | .probeStart _ => [.media]
  | .channelRestore _ => recordBlocks
  | .owedMediaRecord => recordBlocks
  | .startUpRecord => recordBlocks
  | .auditPageWait => [.timer, .media, .audit, .link]
  | .verifyReadQueued _ => [.segs, .media, .audit, .link]
  | .linkReset => startBlocks

/-- A request's payload is malformed (R192). -/
def isMalformed {α : Type} : Req α → Bool
  | .fields _ => false
  | .malformed => true

/-- A request of TABLE 10-2: its tag, its code, and whether its payload is malformed; none for an event, an unknown code and a
dropped frame. -/
def requestHead : Instr → Option (Byte × Nat × Bool)
  | .itemOpen t r => some (t, 0x01, isMalformed r)
  | .segDeclare t r => some (t, 0x02, isMalformed r)
  | .segData t r => some (t, 0x03, isMalformed r)
  | .itemCommit t r => some (t, 0x04, isMalformed r)
  | .itemAbort t r => some (t, 0x05, isMalformed r)
  | .itemRead t r => some (t, 0x06, isMalformed r)
  | .itemSegments t r => some (t, 0x07, isMalformed r)
  | .segRead t r => some (t, 0x08, isMalformed r)
  | .segVerify t r => some (t, 0x09, isMalformed r)
  | .clockRead t r => some (t, 0x0A, isMalformed r)
  | .clockSet t r => some (t, 0x0B, isMalformed r)
  | .clockAdjust t r => some (t, 0x0C, isMalformed r)
  | .classSet t r => some (t, 0x0D, isMalformed r)
  | .classClear t r => some (t, 0x0E, isMalformed r)
  | .classRead t r => some (t, 0x0F, isMalformed r)
  | .domainSet t r => some (t, 0x10, isMalformed r)
  | .domainRead t r => some (t, 0x11, isMalformed r)
  | .policyWrite t r => some (t, 0x12, isMalformed r)
  | .policyRead t r => some (t, 0x13, isMalformed r)
  | .archiveFlags t r => some (t, 0x14, isMalformed r)
  | .eventPost t r => some (t, 0x15, isMalformed r)
  | .eventRead t r => some (t, 0x16, isMalformed r)
  | .sweepStatus t r => some (t, 0x17, isMalformed r)
  | .matterOpen t r => some (t, 0x18, isMalformed r)
  | .matterAmend t r => some (t, 0x19, isMalformed r)
  | .matterClose t r => some (t, 0x1A, isMalformed r)
  | .matterRead t r => some (t, 0x1B, isMalformed r)
  | .custodianSet t r => some (t, 0x1C, isMalformed r)
  | .custodianFind t r => some (t, 0x1D, isMalformed r)
  | .custodianRead t r => some (t, 0x1E, isMalformed r)
  | .dispoList t r => some (t, 0x1F, isMalformed r)
  | .dispoRelease t r => some (t, 0x20, isMalformed r)
  | .dispoStatus t r => some (t, 0x21, isMalformed r)
  | .channelStatus t r => some (t, 0x22, isMalformed r)
  | .channelProbe t r => some (t, 0x23, isMalformed r)
  | .auditRead t r => some (t, 0x24, isMalformed r)
  | .auditHead t r => some (t, 0x25, isMalformed r)
  | .identify t r => some (t, 0x26, isMalformed r)
  | .settingSet t r => some (t, 0x27, isMalformed r)
  | .settingGet t r => some (t, 0x28, isMalformed r)
  | .complianceEnter t r => some (t, 0x29, isMalformed r)
  | .complianceLeave t r => some (t, 0x2A, isMalformed r)
  | .noticeClear t r => some (t, 0x2B, isMalformed r)
  | .reset t r => some (t, 0x2C, isMalformed r)
  | _ => none

/-! ### Replies and records -/

/-- Frames that an event adds, none of them a reply: the flags it finds set stay set, and power and reset stand. -/
def Tells (s t : State) : Prop :=
  (∃ more, t.link.tx = s.link.tx ++ more ∧ ∀ f ∈ more, f.ftype ≠ .reply) ∧
    (∀ n, s.link.flags.getLsbD n = true → t.link.flags.getLsbD n = true) ∧ t.link.power = s.link.power ∧
    t.link.resetTaken = s.link.resetTaken

/-- An event adds exactly one reply, formed before every other frame of the event (R194). -/
def Replied (s t : State) (tag : Byte) (code : Nat) (st : Status) (p : List Field) : Prop :=
  (∃ more, t.link.tx = s.link.tx ++ replyFrame tag code st p :: more ∧ ∀ f ∈ more, f.ftype ≠ .reply) ∧
    (∀ n, s.link.flags.getLsbD n = true → t.link.flags.getLsbD n = true) ∧ t.link.power = s.link.power ∧
    t.link.resetTaken = s.link.resetTaken

/-- An event appends exactly one audit record: it takes the next sequence number, the counter as the event leaves it as its
archive second, which is written into the HWM, and the chain value (R179). -/
def Appended (s t : State) (kind : AuditKind) (subject : List Field) : Prop :=
  t.audit.buffer = s.audit.buffer ++ [s.audit.nextRecord t.clock.counter t.timer kind subject] ∧
    t.audit.counter = s.audit.counter + 1 ∧
    t.audit.chain = (s.audit.nextRecord t.clock.counter t.timer kind subject).chain ∧
    t.clock.hwm = t.clock.counter

/-- The media and the drain are those of a store once settled at the end of the event (R166, R183, R184; the order within the event is log
entry 40's). -/
def Settles (t : State) (m : Media) (a : Audit) : Prop :=
  t.store = Store.settle t.settings t.timer { media := m, audit := a }

/-- A store with one of its channels as given. -/
def Store.put (s : Store) (i : ChanNo) (c : Channel) : Store := { s with media := s.media.set i c }

/-- A request is accepted: one reply, one record, and media and drain settled from those before it. -/
def Accepted (s t : State) (tag : Byte) (code : Nat) (st : Status) (p : List Field) (kind : AuditKind) (subject : List Field) :
    Prop :=
  Replied s t tag code st p ∧ Appended s t kind subject ∧
    Settles t s.media (s.audit.append t.clock.counter t.timer kind subject)

/-- A request is refused: a reply, and nothing else (R192). -/
def Refused (s t : State) (tag : Byte) (code : Nat) (st : Status) (p : List Field) : Prop :=
  t = s.emit (replyFrame tag code st p)

/-! ### Time -/

/-- A second has passed of `s`, giving `t` (R1, R2, R14, R16, R17). The rollover signal's AUTO release opportunity (R147 (1)) is the flag of
log entry 23; that the timers count a second of a powered part by 1 is log entry 7. -/
def SecondPassed (s t : State) : Prop :=
  KeepsAllBut [.clock, .timer, .dispo, .link] s t ∧
    t.timer = (if s.powered then s.timer + 1 else s.timer) ∧ t.clock.lost = s.clock.lost ∧
    (s.clock.state = .unset →
      t.clock.counter = s.clock.counter ∧ t.clock.state = .unset ∧ t.clock.hold = s.clock.hold ∧ t.clock.used = s.clock.used ∧
        t.clock.hwm = s.clock.hwm ∧ t.dispo = s.dispo ∧ t.link = s.link) ∧
    (s.clock.state = .held →
      t.clock.counter = s.clock.counter ∧ t.clock.state = (if s.clock.hold ≤ 1 then .running else .held) ∧
        t.clock.hold = s.clock.hold - 1 ∧ t.clock.used = s.clock.used ∧ t.clock.hwm = s.clock.hwm ∧ t.dispo = s.dispo ∧
        t.link = s.link) ∧
    (s.clock.state = .running →
      t.clock.state = .running ∧ t.clock.hold = s.clock.hold ∧
        t.clock.counter = (if s.clock.counter < Config.secondMax then s.clock.counter + 1 else s.clock.counter) ∧
        (s.rolloverNext = false →
          t.clock.used = s.clock.used ∧ t.clock.hwm = s.clock.hwm ∧ t.dispo = s.dispo ∧ t.link = s.link) ∧
        (s.rolloverNext = true → s.powered = true →
          t.clock.used = 0 ∧ t.clock.hwm = t.clock.counter ∧ t.link = s.link.raise s.settings.notices .dayRollover ∧
            t.dispo = { s.dispo with opportunity := s.dispo.opportunity || s.settings.auto }) ∧
        (s.rolloverNext = true → s.powered = false →
          t.clock.used = 0 ∧ t.clock.hwm = s.clock.hwm ∧ t.dispo = s.dispo ∧ t.link = s.link))

/-! ### Commits -/

/-- The declarations of a context's slots, in slot order. -/
def OpenCtx.decls (o : OpenCtx) : List Decl := o.slots.filterMap Slot.decl

/-- Context `c` of `s`, holding `o`, has been committed in `t` as the next item, with record `r`, live fields `l` and the
evaluation `ev` of the policy list, in the thirteen stages of R41 to R43. -/
def CommittedAs (s t : State) (c : Nat) (o : OpenCtx) (r : ItemRec) (l : LiveItem) (ev : Eval × Bool) : Prop :=
  ev = s.policy.evaluate (s.policy.domain o.env.domain)
      { env := o.env, bytes := (o.decls.map (·.length)).sum, archive := s.policy.flags
        custodian := o.env.parties.any (fun k => (s.hold.find k).isSome) } ∧
    t.index.item s.index.next = some r ∧ r.body = .live l ∧ t.index.next = s.index.next + 1 ∧
    (∀ n, n ≠ s.index.next → t.index.item n = s.index.item n) ∧
    r.domain = o.env.domain ∧ r.commitSecond = s.clock.counter ∧ r.classes = ev.1.classes ∧
    (r.expiry, r.remarks.noEventKey) =
      itemExpiry s.policy ev.1.classes (s.clock.counter / 86400) l.sentDay (s.index.keyState o.env.event) ∧
    r.remarks.policyFault = ev.2 ∧ r.remarks.classLimit = ev.1.limit ∧
    (l.sentDay, r.remarks.sentClamped) =
      sentClamp o.env.sent (s.clock.counter / 86400) (s.policy.domain o.env.domain).backdate ∧
    r.fingerprint = sha256 ((o.decls.map (fun d => digestBytes d.digest)).flatten) ∧
    l.state = .retained ∧ l.tags = o.env.tags ∧ l.flags = ev.1.flags ∧ l.event = o.env.event ∧ l.parties = o.env.parties ∧
    l.segs = o.decls.map (fun d => { digest := d.digest, length := d.length, ref := d.ref }) ∧
    (∀ m, l.holdMask.getLsbD m = (decide (m < 64) && s.hold.covers m o.env.domain l.sentDay o.env.parties)) ∧
    l.holdCount = popCount l.holdMask ∧
    (∀ d, t.index.day d = if r.expiry = .day d then s.index.day d ++ [s.index.next] else s.index.day d) ∧
    t.segs = (o.decls.map (·.ref)).foldl Segs.claimToRef s.segs ∧
    (∀ k, (t.policy.cls k).inUse = (s.policy.cls k).inUse + r.classes.count k ∧ (t.policy.cls k).state =
      match (s.policy.cls k).state with
      | .defined d => if k ∈ r.classes ∧ s.compliant = true then .locked d else .defined d
      | st => st) ∧
    (∀ k, t.index.event k =
      if o.env.event = some k ∧ (∃ c ∈ r.classes, ∃ d, (s.policy.cls c).state.defn = some d ∧ d.anchor = .event) then
        (s.index.event k).map (fun e => { e with items := e.items ++ [s.index.next] })
      else s.index.event k) ∧
    t.ingest.ctx c = { gen := (s.ingest.ctx c).gen, body := none } ∧ c ∉ t.ingest.ready ∧
    (ev.2 = true → t.link.flags.getLsbD 9 = true) ∧ t.clock.counter = s.clock.counter ∧
    Appended s t .itemCommitted
      ([Fld.u24 s.index.next, Fld.u8 r.domain, Fld.u64 r.commitSecond, Fld.u32 l.sentDay] ++ Fld.classSet r.classes ++
        Fld.expiry r.expiry ++ [Fld.u8 l.holdCount, Fld.remarks r.remarks, Fld.digest r.fingerprint])

/-- The fields a commit's reply or COMMITTED report carries of the item (R38, TABLE 10-11). -/
def commitFields (n : Nat) (r : ItemRec) (l : LiveItem) : List Field :=
  [Fld.u24 n] ++ Fld.expiry r.expiry ++ [Fld.u8 l.holdCount] ++ Fld.classSet r.classes ++ [Fld.remarks r.remarks]

/-- A context of `t` after a request on it: its slots and condition, its deadline suspended exactly where R45 suspends it and
otherwise started again in full (R25, R45), its generation as before. -/
def SlotsBecome (s t : State) (c : Nat) (o : OpenCtx) (slots : List Slot) (committing : Bool) : Prop :=
  ∃ o', t.ingest.ctx c = { gen := (s.ingest.ctx c).gen, body := some o' } ∧ o'.slots = slots ∧ o'.committing = committing ∧
    o'.env = o.env ∧ o'.group = o.group ∧
    o'.deadline = if o'.suspends then .suspended else .running (s.timer + s.settings.timeout)

/-! ### The end of an upload -/

/-- What the slot that an owner or waiter names holds. -/
def State.slotAt (s : State) (w : SlotRef) : Option Slot := (s.ctxOf w).bind (fun o => o.slots[w.slot]?)

/-- A report frame (TABLE 10-1). -/
def reportFrame (code : Nat) (p : List Field) : Frame := { ftype := .report, tag := 0, code, status := .ok, payload := p }

/-- The SEGMENT_READY report of a slot (R34). -/
def readyReport (w : SlotRef) : Frame := reportFrame 0x01 [Fld.u8 w.ctx, Fld.u16 w.gen, Fld.u16 w.slot]

/-- The SEGMENT_SEND report of a slot (R36 (2)). -/
def sendReport (w : SlotRef) (length : Nat) : Frame :=
  reportFrame 0x02 [Fld.u8 w.ctx, Fld.u16 w.gen, Fld.u16 w.slot, Fld.u32 length]

/-- The SEGMENT_FAILED report of a slot, its context RECEIVING after the event (R35, R36 (3), R37): the cause of its own end, and the
reason of the upload it waited for. -/
def failedReport (w : SlotRef) (cause reason : Nat) : Frame :=
  reportFrame 0x03 [Fld.u8 w.ctx, Fld.u16 w.gen, Fld.u16 w.slot, Fld.u8 cause, Fld.u8 reason, Fld.u8 1]

/-- The slot has become EMPTY, its context RECEIVING and out of the commit-ready list (R33, R37). -/
def Emptied (s t : State) (w : SlotRef) : Prop :=
  ∀ o, s.ctxOf w = some o → ∃ o', t.ctxOf w = some o' ∧ o'.committing = false ∧ w.ctx ∉ t.ingest.ready ∧
    (w.slot < o.slots.length → o'.slots[w.slot]? = some .empty)

/-- An upload that has ended in failure has been handed over to its waiters `ws`, oldest first, its old pages dead in `m` (R60, R61,
R36): where a placement is granted the oldest waiter owns the upload, SENDING from the first byte, and is told SEGMENT_SEND; where
none is, every waiter is told SEGMENT_FAILED with the cause NO_SPACE and the entry is FREE. -/
def HandedOver (s t : State) (m : Media) (ref : EntryRef) (e : SegEntry) (ws : List SlotRef) (cause : EndCause) : Prop :=
  (∀ m' l w rest, ws = w :: rest → m.place s.settings e.loc.count ref = some (m', l) →
    t.segs.entry ref = some { e with loc := l, owner := some w, waiters := rest } ∧
      ∀ d, (s.slotAt w).bind Slot.decl = some d →
        t.slotAt w = some (.sending d 0 Sha.start) ∧ sendReport w d.length ∈ t.link.tx) ∧
  (m.place s.settings e.loc.count ref = none ∨ ws = [] →
    t.segs.entry ref = none ∧
      ∀ w ∈ ws, Emptied s t w ∧ ((s.ctxOf w).isSome = true → failedReport w 5 cause.code ∈ t.link.tx))

/-- The media once the upload of an entry has been handed over to the waiters `ws`, from media `m` in which its old pages are dead: with
the placement granted, or as they were where none is granted or nobody waits (R60, R61). -/
def Media.handedOver (m : Media) (set : Settings) (ref : EntryRef) (e : SegEntry) (ws : List SlotRef) : Media :=
  if ws = [] then m else ((m.place set e.loc.count ref).map (·.1)).getD m

/-- The declaration of a SENDING or WRITING slot. -/
def Slot.uploading : Slot → Option Decl
  | .sending d _ _ => some d
  | .writing d => some d
  | _ => none

/-- The slot is READY on an entry. -/
def Slot.claims (ref : EntryRef) : Slot → Bool
  | .ready d => decide (d.ref = ref)
  | _ => false

/-- Context `c` of `s`, holding `o`, has given up its WAITING and READY slots in `u` (R44 (1), (2)): its WAITING slots have left the
waiter lists, an entry has lost one claim for each READY slot, and where none is left on a STORED entry with no refs and no pin the
entry is FREE and its pages are dead (R62, R64, R66). In which order entries are freed is left open. -/
def ClaimsGivenUp (s u : State) (c : Nat) (o : OpenCtx) : Prop :=
  KeepsAllBut [.timer, .segs, .media] s u ∧ u.segs.reads = s.segs.reads ∧ u.segs.verifies = s.segs.verifies ∧
    ∃ freed : List EntryRef, freed.Nodup ∧
      (∀ ref, ref ∈ freed ↔ ∃ e, s.segs.entry ref = some e ∧ e.stored = true ∧ e.refs = 0 ∧ e.pinned = false ∧
        1 ≤ o.slots.countP (Slot.claims ref) ∧ e.claims ≤ o.slots.countP (Slot.claims ref)) ∧
      (∀ ref, u.segs.entry ref = if ref ∈ freed then none else (s.segs.entry ref).map (fun e => { e with
        claims := e.claims - o.slots.countP (Slot.claims ref)
        waiters := e.waiters.filter (fun w => !(decide (w.ctx = c ∧ w.gen = (s.ingest.ctx c).gen) &&
          match o.slots[w.slot]? with | some (.waiting d) => decide (d.ref = ref) | _ => false)) })) ∧
      u.media = freed.foldl (fun m ref => (s.segs.entry ref).elim m (fun e => m.deadPages e.loc)) s.media

/-- The uploads of SENDING and WRITING slots fail one after another: the pages of each are withdrawn, and owner failure is applied to
its entry (R44 (3)). -/
def State.uploadsFail (cause : EndCause) (s : State) (ds : List Decl) : State :=
  ds.foldl (fun s d => (s.segs.entry d.ref).elim s (fun e =>
    State.ownerFailure { s with media := s.media.withdraw e.loc } d.ref cause)) s

/-- The bytes that the staging page of page `p` of zone `z` holds while it fills; none where it is not filling (R162). -/
def Channel.filled (c : Channel) (z p : Nat) : Option (List Byte) :=
  (c.filling.find? (fun g => decide (g.zone = z ∧ g.page = p))).map (·.data)

/-- A page lies in the run of a location. -/
def Loc.covers (l : Loc) (g : StagePage) : Prop := g.zone = l.zone ∧ l.first ≤ g.page ∧ g.page < l.first + l.count

/-- A channel has left IN_SERVICE for state `st` (R171 (1) to (4)): mark and owed record, its open zones closed, its AUDIT queue handed
back, its uploads failed with the cause MEDIA. Their pages that were filling or queued are withdrawn (R162), the owner is told, and the
upload goes to the oldest waiter on another channel where a placement is granted there; else every waiter is told and the entry is
FREE. A waiter is passed over only where it had a placement on this channel first, at the failure that led to the fence (log entry 20). -/
def LeftService (s t : State) (i : ChanNo) (cause : FenceCause) (st : ChanState) : Prop :=
  (t.media.get i).state = st ∧ (t.media.get i).markFenced = true ∧ (t.media.get i).fenceOwed = some cause ∧
    (t.media.get i).uploads = [] ∧ (t.media.get i).auditQ = [] ∧
    (∀ z, (s.media.get i).zoneIn .ingestOpen = some z → ((t.media.get i).zone z).state ∈ [ZoneState.full, .reclaiming]) ∧
    (∀ z, (s.media.get i).zoneIn .auditOpen = some z → ((t.media.get i).zone z).state = .auditClosed) ∧
    (∀ p ∈ (s.media.get i).auditQ, p ∈ t.audit.held ∨ ∃ j, j ≠ i ∧ p ∈ (t.media.get j).auditPages) ∧
    (((s.media.get i).uploads.map (·.ref)).Nodup → ((s.media.get i).uploads.map (fun u => (u.zone, u.first))).Nodup →
      (∀ g, g ∈ (t.media.get i).filling ∨ g ∈ (t.media.get i).ingestQ →
        (g ∈ (s.media.get i).filling ∨ g ∈ (s.media.get i).ingestQ) ∧
          ∀ u ∈ (s.media.get i).uploads, inRun u.zone u.first u.count g = false) ∧
      ∀ u ∈ (s.media.get i).uploads, ∀ e, s.segs.entry u.ref = some e →
        (∀ w, e.owner = some w → (s.ctxOf w).isSome = true → failedReport w 2 0 ∈ t.link.tx) ∧
        (t.segs.entry u.ref = none ∧ (∀ w ∈ e.waiters, (s.ctxOf w).isSome = true →
            failedReport w 5 2 ∈ t.link.tx ∨ failedReport w 2 0 ∈ t.link.tx) ∨
          ∃ l w, w ∈ e.waiters ∧ l.chan ≠ i ∧ l.count = e.loc.count ∧
            ∃ passed rest, e.waiters = passed ++ w :: rest ∧
              t.segs.entry u.ref = some { e with loc := l, owner := some w, waiters := rest } ∧
              ∀ x ∈ passed, (s.ctxOf x).isSome = true → failedReport x 2 0 ∈ t.link.tx))

/-! ### Items as sweeps, releases and disposals leave them -/

/-- An item whose expiry a sweep step has changed to `new` stands in `t` as R95 and R110 say: the new expiry in its record, its
state and its places by whether it is then later than today. An ELIGIBLE item that becomes RETAINED frees a place of the disposition
queue, so the due pause ends, and nothing else of the unit changes (R139). -/
def MovedAs (s t : State) (i : Nat) (r : ItemRec) (l : LiveItem) (new : Expiry) (noKey : Bool) : Prop :=
  ∃ st : LiveState,
    st = (match l.state with
      | .retained => .retained
      | .released => .released
      | x => if new.laterThan s.today then .retained else x) ∧
    t.index.item i = some { r with
      expiry := new, remarks := { r.remarks with noEventKey := r.remarks.noEventKey || noKey }
      body := .live { l with state := st } } ∧
    (∀ d, t.index.day d =
      (if l.state = .retained ∧ r.expiry = .day d then (s.index.day d).filter (fun j => j != i) else s.index.day d) ++
        (if st = .retained ∧ new = .day d then [i] else [])) ∧
    t.dispo = (if l.state = .eligible ∧ st = .retained then
      { s.dispo with queue := s.dispo.queue.filter (fun e => e.item != i), duePause := false } else s.dispo)

/-- The step of a CLASS or EVENT sweep recomputes the expiry of a live item and merges it with the present one (R92, R93, R94,
R109): the item is changed exactly where the merge gives another expiry. -/
def Recomputed (s t : State) (i : Nat) (r : ItemRec) (l : LiveItem) (changed : Bool) : Prop :=
  ∀ e, e = itemExpiry s.policy r.classes (r.commitSecond / 86400) l.sentDay (s.index.keyState l.event) →
    (r.expiry.merge e.1 = r.expiry → changed = false ∧ t.dispo = s.dispo ∧ t.index.calendar = s.index.calendar ∧
      t.index.item i = some { r with remarks := { r.remarks with noEventKey := r.remarks.noEventKey || e.2 } }) ∧
    (r.expiry.merge e.1 ≠ r.expiry → changed = true ∧ MovedAs s t i r l (r.expiry.merge e.1) e.2)

/-- A sweep step has moved the cursor by one and counted a changed item; no other item, and no request of the queue, is touched. -/
def StepTaken (s t : State) (i : Nat) (u : SweepRun) (changed : Bool) : Prop :=
  t.index.run = some { limit := u.limit, cursor := u.cursor + 1, changed := u.changed + changed.toNat } ∧
    t.index.sweeps = s.index.sweeps ∧ t.index.next = s.index.next ∧ ∀ n, n ≠ i → t.index.item n = s.index.item n

/-- The first `n` entries of the disposition queue have been released (R145). -/
def ReleasedAs (s t : State) (auto : Bool) (n : Nat) (asked : Option Nat) : Prop :=
  t.dispo.queue = s.dispo.queue.drop n ∧
    t.dispo.list = s.dispo.list ++ (s.dispo.queue.take n).map (·.item) ∧
    t.dispo.batch = some { auto, second := s.clock.counter, size := (s.dispo.queue.take n).length, disposed := 0, held := 0
                           retained := 0 } ∧
    t.dispo.duePause = false ∧
    (∀ i, i ∉ (s.dispo.queue.take n).map (·.item) → t.index.item i = s.index.item i) ∧
    (∀ i r l, i ∈ (s.dispo.queue.take n).map (·.item) → s.index.item i = some r → r.body = .live l →
      t.index.item i = some { r with body := .live { l with state := .released } }) ∧
    t.index.calendar = s.index.calendar ∧ t.clock.counter = s.clock.counter ∧
    ∀ f e, (s.dispo.queue.take n).head? = some f → (s.dispo.queue.take n).getLast? = some e →
      Appended s t .dispoReleased
        ([Fld.yes auto, Fld.u32 (s.dispo.queue.take n).length, Fld.u24 f.item, Fld.u24 e.item, Fld.u32 f.day, Fld.u32 e.day] ++
          Fld.opt 4 asked)

/-- An item as its coverage sync leaves it: mask and count of the matters that cover it (R127). -/
def Synced (s : State) (r : ItemRec) (l l' : LiveItem) : Prop :=
  (∀ m, l'.holdMask.getLsbD m = (decide (m < 64) && s.hold.covers m r.domain l.sentDay l.parties)) ∧
    l'.holdCount = popCount l'.holdMask ∧ { l' with holdMask := l.holdMask, holdCount := l.holdCount } = l

/-! ### Invariants -/

/-- The clock has handed out nothing later than it holds, and holds nothing past the last archive second (R3). -/
def ClockInv (s : State) : Prop := s.clock.hwm ≤ s.clock.counter ∧ s.clock.counter ≤ Config.secondMax

/-- Item numbers run from 1 with a record for every number assigned and for no other (R97). -/
def NumbersInv (s : State) : Prop :=
  1 ≤ s.index.next ∧ ∀ n, (s.index.item n).isSome = true ↔ 1 ≤ n ∧ n < s.index.next

/-- Every item that is not DISPOSED has as many matters in its hold mask as its hold count says, and every HOLD sweep of the
queue names a matter (R129, R111). -/
def HoldCountInv (s : State) : Prop :=
  (∀ n r l, s.index.item n = some r → r.body = .live l → l.holdCount = popCount l.holdMask) ∧
    ∀ m, SweepReq.hold m ∈ s.index.sweeps → m < Config.matters

/-- An item is live in a state. -/
def Index.liveIn (x : Index) (n : Nat) (st : LiveState) : Prop :=
  ∃ r l, x.item n = some r ∧ r.body = .live l ∧ l.state = st

/-- Every item stands in the structure of its state and in no other: a RETAINED item under its expiry day in the calendar,
an ELIGIBLE item in the disposition queue, a RELEASED item in the disposal list, each once; and an item whose expiry is PENDING is
RETAINED (R101, R137, R141, R145). -/
def PlacesInv (s : State) : Prop :=
  NumbersInv s ∧
  Table.sorted s.index.calendar = true ∧
  (∀ d n, n ∈ s.index.day d ↔ ∃ r l, s.index.item n = some r ∧ r.body = .live l ∧ l.state = .retained ∧ r.expiry = .day d) ∧
  (∀ d, (s.index.day d).Nodup) ∧
  (∀ n, n ∈ s.dispo.queue.map (·.item) ↔ s.index.liveIn n .eligible) ∧
  (s.dispo.queue.map (·.item)).Nodup ∧
  (∀ n, n ∈ s.dispo.list ↔ s.index.liveIn n .released) ∧
  s.dispo.list.Nodup ∧
  s.dispo.queue.length ≤ Config.dispoQueue ∧
  ∀ n r l, s.index.item n = some r → r.body = .live l → r.expiry = .pending → l.state = .retained

/-- The buffer holds at most 2,048 records, and their sequence numbers rise strictly and lie below the counter (R180). -/
def BufferInv (s : State) : Prop :=
  s.audit.buffer.length ≤ Config.auditBuffer ∧
    (s.audit.buffer.map (·.seq)).Pairwise (· < ·) ∧ ∀ r ∈ s.audit.buffer, r.seq < s.audit.counter

/-- Every setting lies in its range, and SPACE_THROTTLE is greater than SPACE_RESERVE (TABLE 10-5, R198). -/
def SettingsInv (s : State) : Prop :=
  (∀ n lo hi, settingRange n = some (lo, hi) → lo ≤ s.settings.value n ∧ s.settings.value n ≤ hi) ∧
    s.settings.reserve < s.settings.throttle

/-- An expiry is not earlier than another: NEVER stays NEVER, a day stays or rises or becomes NEVER, PENDING may become anything
(TABLE 4-4, R93). -/
def Expiry.notEarlier (old new : Expiry) : Prop :=
  match old, new with
  | .never, .never => True
  | .never, _ => False
  | .day a, .day b => a ≤ b
  | .day _, .never => True
  | .day _, .pending => False
  | .pending, _ => True

/-- A channel's persistent mark is FENCED while the channel is not IN_SERVICE, and only then (R155, R171). -/
def MarksInv (s : State) : Prop := ∀ i, ((s.media.get i).markFenced = true ↔ (s.media.get i).state ≠ .inService)

/-- An item is not DISPOSED and its class set contains a class. -/
def ItemRec.carries (r : ItemRec) (c : Nat) : Bool :=
  match r.body with
  | .live _ => decide (c ∈ r.classes)
  | .disposed _ => false

/-- A class's in-use count is the number of items, other than DISPOSED ones, whose class set contains it; a class set holds
distinct classes (R80, R89). -/
def InUseInv (s : State) : Prop :=
  NumbersInv s ∧ Table.sorted s.index.items = true ∧ (∀ e ∈ s.index.items, e.2.classes.Nodup) ∧
    ∀ c, (s.policy.cls c).inUse = s.index.items.countP (fun e => e.2.carries c)

/-- Every table of index memory that a key orders stands in canonical order, its keys rising strictly. -/
def TablesInv (s : State) : Prop :=
  Table.sorted s.ingest.ctxs = true ∧ Table.sorted s.segs.buckets = true ∧ Table.sorted s.segs.overflow = true ∧
    Table.sorted s.policy.classes = true ∧ Table.sorted s.policy.domains = true ∧ Table.sorted s.policy.entries = true ∧
    Table.sorted s.index.items = true ∧ Table.sorted s.index.calendar = true ∧ Table.sorted s.index.events = true ∧
    Table.sorted s.hold.matters = true ∧ Table.sorted s.hold.custodians = true ∧
    ∀ i, Table.sorted (s.media.get i).zones = true

/-- A zone that is BLANK, an audit zone, or RECLAIMING has no live pages (R157, R158); the zone map is in canonical order. -/
def ZonesInv (s : State) : Prop :=
  ∀ i, Table.sorted (s.media.get i).zones = true ∧
    ∀ z, ((s.media.get i).zone z).state ∈ [ZoneState.blank, .auditOpen, .auditClosed, .reclaiming] →
      ((s.media.get i).zone z).live = 0

/-- No item's hold mask holds a FREE matter (R129). With what keeps it so (R111, R112, R121): a sweep runs exactly while the queue is
not empty; a LIFTING matter has a HOLD sweep in the queue; and while that one is the last and runs, the matter's bit is left on no item
but those from its cursor to its limit. -/
structure MasksInv (s : State) : Prop where
  numbers : NumbersInv s
  runs : s.index.run.isSome = true ↔ s.index.sweeps ≠ []
  masks : ∀ n r l m, s.index.item n = some r → r.body = .live l → l.holdMask.getLsbD m = true → s.hold.matter m ≠ .free
  lifts : ∀ m f, s.hold.matter m = .lifting f → .hold m ∈ s.index.sweeps
  last : ∀ m f rs u, s.hold.matter m = .lifting f → s.index.sweeps = .hold m :: rs → .hold m ∉ rs → s.index.run = some u →
    ∀ n r l, s.index.item n = some r → r.body = .live l → l.holdMask.getLsbD m = true → u.cursor ≤ n ∧ n ≤ u.limit

/-- The custodian table holds each key at one position below 4,096, with a mask that is not empty (R122). -/
def CustodiansInv (s : State) : Prop :=
  Table.sorted s.hold.custodians = true ∧
  (∀ p e, Table.find s.hold.custodians p = some e → p < Config.custodians ∧ e.mask ≠ 0) ∧
  ∀ p q d e, Table.find s.hold.custodians p = some d → Table.find s.hold.custodians q = some e → d.key = e.key → p = q

/-! ### The laws of the Segment Table and of the zones -/

/-- The number of slots of live items that name an entry (R65). -/
def Index.refsTo (x : Index) (ref : EntryRef) : Nat :=
  (x.items.map (fun e => match e.2.body with
    | .live l => l.segs.countP (fun g => decide (g.ref = ref))
    | .disposed _ => 0)).sum

/-- The number of READY slots of open contexts that name an entry (R64). -/
def Ingest.claimsTo (g : Ingest) (ref : EntryRef) : Nat :=
  (g.ctxs.map (fun e => match e.2.body with
    | some o => o.slots.countP (Slot.claims ref)
    | none => 0)).sum

/-- The pages of the entries in use that lie in a zone (R158). -/
def Segs.pagesIn (t : Segs) (i : ChanNo) (z : Nat) : Nat :=
  (t.all.map (fun e => if e.2.loc.chan = i ∧ e.2.loc.zone = z then e.2.loc.count else 0)).sum

/-- The slot is SENDING or WRITING under a declaration. -/
def Slot.uploads (d : Decl) (v : Slot) : Prop := v = .writing d ∨ ∃ n sha, v = .sending d n sha

/-- The contexts: numbered below 16, none open without power; the commit-ready list holds COMMITTING contexts with every slot READY,
each once, and one that waits finds no audit slot free (R40). -/
structure ContextsInv (s : State) : Prop where
  sorted : Table.sorted s.ingest.ctxs = true
  below : ∀ c, (s.ingest.ctx c).body.isSome = true → c < Config.contexts
  dark : s.powered = false → s.ingest = { ctxs := [], ready := [] }
  ready : ∀ c ∈ s.ingest.ready, ∃ o, (s.ingest.ctx c).body = some o ∧ o.committing = true ∧ o.allReady = true
  once : s.ingest.ready.Nodup
  waits : s.ingest.ready ≠ [] → s.slotFree = false

/-- The entries against the slots and the items. Refs count the slots of live items and claims the READY slots (R64, R65, R67); a
STORED entry without refs, claims or pin does not stay (R66). While the part is powered an INBOUND entry has one owner, a SENDING or
WRITING slot that names it, and its waiters are the WAITING slots that name it, each once and at most 15 (R56, R58). -/
structure EntriesInv (s : State) : Prop where
  sorted : Table.sorted s.segs.buckets = true ∧ Table.sorted s.segs.overflow = true
  free : ∀ ref, s.segs.entry ref = none → s.index.refsTo ref = 0 ∧ s.ingest.claimsTo ref = 0
  stored : ∀ ref e, s.segs.entry ref = some e → e.stored = true →
    e.owner = none ∧ e.waiters = [] ∧ e.claims = s.ingest.claimsTo ref ∧ e.claims ≤ Config.claimsMax ∧
      (e.pinned = false → e.refs = s.index.refsTo ref ∧ e.refs < Config.refsMax) ∧
      (e.pinned = true → e.refs = Config.refsMax) ∧ (s.powered = true → e.pinned = true ∨ 0 < e.refs + e.claims)
  inbound : ∀ ref e, s.segs.entry ref = some e → e.stored = false →
    e.refs = 0 ∧ e.claims = 0 ∧ e.pinned = false ∧ s.index.refsTo ref = 0 ∧ s.ingest.claimsTo ref = 0 ∧
      e.waiters.Nodup ∧ e.waiters.length ≤ Config.waitersMax ∧
      (s.powered = true → ∃ w v d, e.owner = some w ∧ s.slotAt w = some v ∧ v.uploads d ∧ d.ref = ref) ∧
      (s.powered = false → e.waiters = [])
  owners : ∀ w v d, s.slotAt w = some v → v.uploads d →
    ∃ e, s.segs.entry d.ref = some e ∧ e.stored = false ∧ e.owner = some w
  waiting : ∀ w d, s.slotAt w = some (.waiting d) → ∃ e, s.segs.entry d.ref = some e ∧ e.stored = false ∧ w ∈ e.waiters
  waiters : ∀ ref e w, s.segs.entry ref = some e → w ∈ e.waiters → ∃ d, s.slotAt w = some (.waiting d) ∧ d.ref = ref

/-- The entries against the zones. A zone's live count is the number of pages of the entries that lie in it, the seventh law (R158);
runs of pages lie below the write point and do not meet (R157); the uploads of the channels are those of the INBOUND entries, each
with its placement (R162). -/
structure PagesInv (s : State) : Prop where
  zones : ZonesInv s
  live : ∀ i z, ((s.media.get i).zone z).live = s.segs.pagesIn i z
  runs : ∀ ref e, s.segs.entry ref = some e →
    1 ≤ e.loc.count ∧ e.loc.first + e.loc.count ≤ ((s.media.get e.loc.chan).zone e.loc.zone).wp
  apart : ∀ r1 r2 e1 e2, r1 ≠ r2 → s.segs.entry r1 = some e1 → s.segs.entry r2 = some e2 →
    e1.loc.chan = e2.loc.chan → e1.loc.zone = e2.loc.zone →
    e1.loc.first + e1.loc.count ≤ e2.loc.first ∨ e2.loc.first + e2.loc.count ≤ e1.loc.first
  uploads : ∀ i, ∀ u ∈ (s.media.get i).uploads, u.passed < u.count ∧ ∃ e, s.segs.entry u.ref = some e ∧ e.stored = false ∧
    e.loc = { chan := i, zone := u.zone, first := u.first, count := u.count }
  once : ∀ i, ((s.media.get i).uploads.map (·.ref)).Nodup
  placed : s.powered = true → ∀ ref e, s.segs.entry ref = some e → e.stored = false →
    ref ∈ (s.media.get e.loc.chan).uploads.map (·.ref)

/-- The RECLAIM queue of every channel holds RECLAIMING zones, each once, and the zone being erased is RECLAIMING and not in it; while
the part is powered every RECLAIMING zone stands in one of the two places (R158, R165). -/
structure ReclaimInv (s : State) : Prop where
  queued : ∀ i, ∀ z ∈ (s.media.get i).reclaimQ, ((s.media.get i).zone z).state = .reclaiming
  once : ∀ i, (s.media.get i).reclaimQ.Nodup
  erasing : ∀ i e, (s.media.get i).erase = some e →
    ((s.media.get i).zone e.zone).state = .reclaiming ∧ e.zone ∉ (s.media.get i).reclaimQ
  operation : ∀ i z, (s.media.get i).op = some (.erase z) → ∃ e, (s.media.get i).erase = some e ∧ e.zone = z
  all : s.powered = true → ∀ i z, ((s.media.get i).zone z).state = .reclaiming →
    z ∈ (s.media.get i).reclaimQ ∨ ∃ e, (s.media.get i).erase = some e ∧ e.zone = z

/-- The laws of stored content together: each rests on the others. -/
structure StorageInv (s : State) : Prop where
  numbers : NumbersInv s
  items : Table.sorted s.index.items = true
  contexts : ContextsInv s
  entries : EntriesInv s
  pages : PagesInv s
  reclaim : ReclaimInv s

end Sys2Proof.Machine
end

