-- ==== Sys2Proof/Certificates/Slice0/Obligations.lean ====
section
/-! DEFINITION. The statements for the provers, chapter by chapter. Each says which rules of the spec it formalises; a clause that
rests on a choice of the model names its log entry. -/

section

open Sys2Proof Sys2Proof.Machine

/-! ### The queue, frames and requests -/

/-- The command at the front of the queue runs on the state with the queue's rest; an empty queue idles (log entry 4). -/
def Obligations.StepRunsFront : Prop :=
  (∀ (c : Instr) (cs : List Instr) (s : State), step { s with pending := c :: cs } = exec c { s with pending := cs }) ∧
    ∀ s : State, s.pending = [] → step s = .next s

/-- What the spec gives a blank part: every zone BLANK (R157), every channel IN_SERVICE in its mark with no fence owed (R155,
R171), HWM 0 (R3), next item number 1 (R97), sequence counter and chain value 0 (R179), every class UNDEFINED (R74), every domain
UNUSED (R82), every policy entry UNUSED (R86), every archive flag clear (R85), every matter FREE (R117), the settings of TABLE
10-5, TRIAL mode (R200), and F = 4 x 8,191 (R161). That no other value of the reset is claimed here is log entry 1. -/
def Obligations.BlankPart : Prop :=
  (∀ i z, (State.reset.media.get i).zone z = Zone.blank) ∧
    (∀ i, (State.reset.media.get i).state = .inService ∧ (State.reset.media.get i).markFenced = false ∧
      (State.reset.media.get i).fenceOwed = none ∧ (State.reset.media.get i).probeWp = 0) ∧
    State.reset.media.freeZones = 32764 ∧ State.reset.clock.hwm = 0 ∧ State.reset.index.next = 1 ∧
    State.reset.audit.counter = 0 ∧ State.reset.audit.chain = 0 ∧ State.reset.audit.buffer = [] ∧ State.reset.audit.map = [] ∧
    (∀ c, State.reset.policy.cls c = { state := .undefined, inUse := 0 }) ∧
    (∀ d, State.reset.policy.domain d = { active := false, group := 0, fallback := none, start := 0, backdate := 30 }) ∧
    (∀ e, State.reset.policy.entry e = .unused) ∧ State.reset.policy.flags = 0 ∧
    (∀ m, State.reset.hold.matter m = .free) ∧ (∀ n, State.reset.index.item n = none) ∧ State.reset.compliant = false ∧
    [0, 1, 2, 3, 4, 5, 6, 7, 8, 9].map State.reset.settings.value = [300, 120, 0, 30, 256, 32, 4, 8, 2, 0xFFF]

/-- Every invariant of the model holds of the part before its first power-on. The values of the reset that the spec does not give
are log entry 1's. -/
def Obligations.InvariantsAtReset : Prop :=
  ClockInv State.reset ∧ NumbersInv State.reset ∧ PlacesInv State.reset ∧ HoldCountInv State.reset ∧ BufferInv State.reset ∧
    SettingsInv State.reset ∧ MarksInv State.reset ∧ ZonesInv State.reset ∧ InUseInv State.reset ∧ TablesInv State.reset ∧
    MasksInv State.reset ∧ CustodiansInv State.reset ∧ StorageInv State.reset

/-- A request that arrives while no request is taken is dropped, with no reply and no effect (R191 (5)), and a frame that fails one of the
other tests of R191, one with fewer bytes than a header has among them, spells no request. A malformed payload is answered BAD_FIELD and
changes nothing else, ITEM_OPEN's in its second check; a code outside 0x01 to 0x2C is answered UNKNOWN_REQUEST with an empty payload
(R192). That this holds of NOTICE_CLEAR and RESET too is log entry 14. -/
def Obligations.FramesRefused : Prop :=
  ((∀ (i : Instr) (s : State), s.taking = false → (requestHead i).isSome = true → exec i s = .next s) ∧
     (∀ (tag code : Byte) (s : State), s.taking = false → exec (.unknownRequest tag code) s = .next s) ∧
     (∀ (bs : List Byte) (s : State), exec (.frameDropped bs) s = .next s) ∧
     (∀ bs : List Byte, bs.length < 6 → receive bs = .frameDropped bs) ∧
     ∀ (kind tag code st l1 l0 : Byte) (rest : List Byte),
       (rest.length ≠ l1.toNat * 256 + l0.toNat + 4 ∨ 4160 < l1.toNat * 256 + l0.toNat ∨ kind ≠ 0x01 ∨
         ofBytes (rest.drop (l1.toNat * 256 + l0.toNat)) ≠
           (crc32 ((kind :: tag :: code :: st :: l1 :: l0 :: rest).take (6 + (l1.toNat * 256 + l0.toNat)))).toNat) →
       receive (kind :: tag :: code :: st :: l1 :: l0 :: rest) = .frameDropped (kind :: tag :: code :: st :: l1 :: l0 :: rest)) ∧
  ((∀ (i : Instr) (s : State) (tag : Byte) (code : Nat), s.taking = true → requestHead i = some (tag, code, true) →
       exec i s = .next (s.emit (replyFrame tag code
         (if code = 0x01 ∧ s.clock.state = .unset then .clockUnset else .badField) []))) ∧
     ∀ (tag code : Byte) (s : State), s.taking = true → code.toNat = 0 ∨ 0x2C < code.toNat →
       exec (.unknownRequest tag code) s = .next (s.emit (replyFrame tag code.toNat .unknownRequest [])))

/-- The frame a host sends for a well-formed request is received as that request: no bit of a payload is dropped. Layouts that
section 10.6 does not give outright are log entry 13's. -/
def Obligations.FrameRoundTrip : Prop :=
  ∀ (i : Instr) (bs : List Byte), i.wf = true → encode i = some bs → receive bs = i

/-- The frame of every command: each changes no block of the state but those `touches` lists for it, and none changes the queue. -/
def Obligations.FrameOfEveryCommand : Prop :=
  ∀ (i : Instr) (s t : State), exec i s = .next t → KeepsAllBut (touches i) s t ∧ t.pending = s.pending

/-! ### Chapter 10 -/

/-- A notice's onset sets its flag whether or not its kind is enabled, leaves every other flag, and forms one NOTICE frame with
the mask as it then stands exactly where the flag was clear and the kind is enabled (R195). An append raises AUDIT_HALF at the
1,024th record of the buffer and AUDIT_FULL at the 2,048th (R182). An event raises SPACE_LOW where it has made F less than
SPACE_THROTTLE, and SPACE_RESERVE where it has made F equal to or less than SPACE_RESERVE (R161); that F and the settings are compared
before and after the whole event is log entry 19. NOTICE_CLEAR clears each named flag, leaves every other, and answers OK with the
mask after it; nothing else changes (R196). That bits 12 to 15 of its mask name nothing is log entry 15. -/
def Obligations.Notices : Prop :=
  (∀ (enabled : BitVec 12) (n : Notice) (l : Link),
     (l.raise enabled n).flags.getLsbD n.bit = true ∧
       (∀ k, k ≠ n.bit → (l.raise enabled n).flags.getLsbD k = l.flags.getLsbD k) ∧
       (l.raise enabled n).tx =
         (if l.flags.getLsbD n.bit = false ∧ enabled.getLsbD n.bit = true then
           l.tx ++ [noticeFrame (l.raise enabled n).flags enabled] else l.tx) ∧
       (l.raise enabled n).power = l.power ∧ (l.raise enabled n).resetTaken = l.resetTaken) ∧
  ((∀ (s : State) (kind : AuditKind) (subject : List Field) (k : Nat),
      (s.append kind subject).link.flags.getLsbD k = (s.link.flags.getLsbD k ||
        decide (k = 0 ∧ s.audit.buffer.length + 1 = 1024 ∨ k = 1 ∧ s.audit.buffer.length + 1 = 2048))) ∧
   ∀ (s0 s t : State) (k : Nat), s.taking = true → t = State.closeEvent s0 s →
     t.link.flags.getLsbD k = (s.link.flags.getLsbD k || decide (
       k = 2 ∧ s0.settings.throttle ≤ s0.media.freeZones ∧ t.media.freeZones < t.settings.throttle ∨
         k = 3 ∧ s0.settings.reserve < s0.media.freeZones ∧ t.media.freeZones ≤ t.settings.reserve))) ∧
  (∀ (tag : Byte) (m : BitVec 16) (s : State), s.taking = true →
     ∃ t, exec (.noticeClear tag (.fields m)) s = .next t ∧ KeepsAllBut [.link] s t ∧
       (∀ n, t.link.flags.getLsbD n = (s.link.flags.getLsbD n && !m.getLsbD n)) ∧
       t.link.tx = s.link.tx ++ [replyFrame tag 0x2B .ok [Fld.u16 t.link.flags.toNat]] ∧ t.link.power = s.link.power ∧
       t.link.resetTaken = s.link.resetTaken)

/-- SETTING_SET takes a value in range that no check of R198 refuses: that setting holds the value, every other setting is as it was, one
SETTING_CHANGED record is appended and the reply is OK. A change to AUTO gives an AUTO release opportunity (R147 (3)); a change to REVIEW
drops an AUTO wait and an opportunity not yet settled (R146). A change of NOTICE_ENABLE that enables a kind whose flag is set forms one
NOTICE frame, and any other change forms none of its own (R196). SETTING_SET answers the first refusal of R198 that applies, and changes
nothing. That an opportunity is a flag until it is settled is log entry 23. The model's own choice is the place of R196's frame and its
mask: it stands right behind the reply, before an AUDIT_HALF or AUDIT_FULL of the change's own record and with the mask as it was before
that; R195, R196 and R198 give no order of the two (DESIGN CHOICE, log entry 26). -/
def Obligations.SettingSetOutcome : Prop :=
  (∀ (tag : Byte) (q : SettingSet) (s : State) (lo hi : Nat), s.taking = true → settingRange q.setting = some (lo, hi) →
     lo ≤ q.value → q.value ≤ hi →
     (q.setting = 4 → s.settings.reserve < q.value) → (q.setting = 5 → q.value < s.settings.throttle) →
     (s.compliant = true → (q.setting = 0 ∨ q.setting = 2 → q.value ≤ s.settings.value q.setting) ∧
       (q.setting = 3 → s.settings.value 3 ≤ q.value)) →
     q.value ≠ s.settings.value q.setting → s.slotFree = true →
     ∃ t, exec (.settingSet tag (.fields q)) s = .next t ∧ KeepsAllBut (.settings :: .dispo :: recordBlocks) s t ∧
       Accepted s t tag 0x27 .ok [] .settingChanged
         [Fld.u8 q.setting, Fld.u32 (s.settings.value q.setting), Fld.u32 q.value] ∧
       t.settings.value q.setting = q.value ∧ (∀ n, n ≠ q.setting → t.settings.value n = s.settings.value n) ∧
       (q.setting ≠ 2 → t.dispo = s.dispo) ∧ (q.setting = 2 → q.value = 1 → t.dispo = { s.dispo with opportunity := true }) ∧
       (q.setting = 2 → q.value = 0 → t.dispo = { s.dispo with opportunity := false, autoWait := false }) ∧
       (q.setting = 9 → s.link.flags &&& t.settings.notices &&& ~~~s.settings.notices ≠ 0 →
         (t.link.tx.drop (s.link.tx.length + 1)).head? = some (noticeFrame s.link.flags t.settings.notices) ∧
         (t.link.flags = s.link.flags → t.link.tx.length = s.link.tx.length + 2)) ∧
       (q.setting ≠ 9 ∨ s.link.flags &&& t.settings.notices &&& ~~~s.settings.notices = 0 → t.link.flags = s.link.flags →
         t.link.tx.length = s.link.tx.length + 1) ∧
       t.clock.counter = s.clock.counter) ∧
  (∀ (tag : Byte) (q : SettingSet) (s : State), s.taking = true →
     (settingRange q.setting = none → exec (.settingSet tag (.fields q)) s = .next (s.emit (replyFrame tag 0x27 .badField []))) ∧
     ∀ lo hi, settingRange q.setting = some (lo, hi) →
       (q.value < lo ∨ hi < q.value → exec (.settingSet tag (.fields q)) s = .next (s.emit (replyFrame tag 0x27 .badField []))) ∧
       (lo ≤ q.value → q.value ≤ hi →
         ((q.setting = 4 ∧ q.value ≤ s.settings.reserve) ∨ (q.setting = 5 ∧ s.settings.throttle ≤ q.value) →
           exec (.settingSet tag (.fields q)) s = .next (s.emit (replyFrame tag 0x27 .badField []))) ∧
         (¬((q.setting = 4 ∧ q.value ≤ s.settings.reserve) ∨ (q.setting = 5 ∧ s.settings.throttle ≤ q.value)) →
           (s.compliant = true ∧ ((q.setting = 0 ∨ q.setting = 2) ∧ s.settings.value q.setting < q.value ∨
               q.setting = 3 ∧ q.value < s.settings.value 3) →
             exec (.settingSet tag (.fields q)) s = .next (s.emit (replyFrame tag 0x27 .mode []))) ∧
           (¬(s.compliant = true ∧ ((q.setting = 0 ∨ q.setting = 2) ∧ s.settings.value q.setting < q.value ∨
               q.setting = 3 ∧ q.value < s.settings.value 3)) →
             (q.value = s.settings.value q.setting →
               exec (.settingSet tag (.fields q)) s = .next (s.emit (replyFrame tag 0x27 .unchanged []))) ∧
             (q.value ≠ s.settings.value q.setting → s.slotFree = false →
               exec (.settingSet tag (.fields q)) s = .next (s.emit (replyFrame tag 0x27 .auditFull [])))))))

/-- SETTING_GET answers a setting's value, range, value on a blank part and restriction in the present mode; above 9 it is refused with
BAD_FIELD (R199). IDENTIFY answers the signature, the revision, the mode and the entries of TABLE 10-6 (R202). Neither changes anything
else. CHANNEL_STATUS and AUDIT_HEAD answer as R177 and R188 say and change nothing else; the eight counts of R177 (2) are those of TABLE
8-2, no data zone being PROBE. Field widths that section 10.6 does not give, and the one byte that says a setting's restriction and its
direction, are log entry 13's; so are, as DESIGN CHOICES, the range of a setting as two values, of NOTICE_ENABLE too, and the zone
counts and queue depths with no number of entries before them. That the depth of the AUDIT queue leaves out a page in flight is log
entry 8, and that a probe's ERASE shows as erase condition none log entry 41. -/
def Obligations.DeviceReads : Prop :=
  ((∀ (tag : Byte) (n : Nat) (s : State), s.taking = true → 9 < n →
     exec (.settingGet tag (.fields n)) s = .next (s.emit (replyFrame tag 0x28 .badField []))) ∧
   (∀ (tag : Byte) (n lo hi : Nat) (s : State), s.taking = true → settingRange n = some (lo, hi) →
     exec (.settingGet tag (.fields n)) s = .next (s.emit (replyFrame tag 0x28 .ok
       [Fld.u32 (s.settings.value n), Fld.u32 lo, Fld.u32 hi, Fld.u32 (State.reset.settings.value n),
         Fld.u8 (if s.compliant = false then 0 else if n = 0 ∨ n = 2 then 1 else if n = 3 then 2 else 0)]))) ∧
   ∀ (tag : Byte) (s : State), s.taking = true →
     exec (.identify tag (.fields ())) s = .next (s.emit (replyFrame tag 0x26 .ok
       ([{ width := 6, value := 0x4B4332333030 }, Fld.u16 0x0100, Fld.yes s.compliant, Fld.u16 38] ++
         (identifyTable.map (fun e => [asciiField 16 e.1, Fld.u64 e.2])).flatten)))) ∧
  (∀ (tag : Byte) (s : State), s.taking = true →
     (∀ n, 3 < n → exec (.channelStatus tag (.fields n)) s = .next (s.emit (replyFrame tag 0x22 .badField []))) ∧
     (∀ (i : ChanNo) (c : Channel), c = s.media.get i → exec (.channelStatus tag (.fields i.val)) s =
       .next (s.emit (replyFrame tag 0x22 .ok
         ([Fld.chanState c.state, Fld.yes c.markFenced] ++
           [ZoneState.blank, .ingestOpen, .auditOpen, .full, .auditClosed, .reclaiming, .retired].map
             (fun st => Fld.u32 (c.countZones st)) ++ [Fld.u32 0] ++
           [Fld.u32 s.media.freeZones, Fld.yes (decide (s.media.freeZones < s.settings.throttle)),
             Fld.yes (decide (s.media.freeZones ≤ s.settings.reserve))] ++
           c.openFields .ingestOpen ++ c.openFields .auditOpen ++ [Fld.u16 c.probeWp] ++
           [Fld.u32 c.auditQ.length, Fld.u32 c.ingestQ.length, Fld.u32 c.readQ.length, Fld.u32 c.reclaimQ.length,
             Fld.u32 c.stagingFree] ++
           c.eraseFields ++ [Fld.u32 c.fails] ++ c.probeField ++
           [Fld.yes c.fenceOwed.isSome, Fld.u32 c.owedZones.length])))) ∧
     exec (.auditHead tag (.fields ())) s = .next (s.emit (replyFrame tag 0x25 .ok
       ([Fld.u48 (s.audit.counter - 1), Fld.u64 s.audit.chain.toNat, Fld.u32 s.audit.buffer.length, Fld.u32 s.store.undrained] ++
         Fld.opt 1 (s.audit.drain.map (·.val)) ++
         [Fld.u32 s.media.outstanding.length, Fld.u32 s.audit.held.length, Fld.u32 s.audit.map.length] ++
         (match s.audit.map.getLast? with
           | some e => [Fld.yes true, Fld.u8 e.chan.val, Fld.u16 e.zone, Fld.u16 e.page]
           | none => [Fld.yes false, Fld.u8 0, Fld.u16 0, Fld.u16 0])))))

/-- COMPLIANCE_ENTER in TRIAL mode makes the part COMPLIANT, locks every DEFINED class in use and no other, and appends one
COMPLIANCE_ENTERED record with the number of the classes it locks; its refusals come in the order of R200. COMPLIANCE_LEAVE leaves
COMPLIANT mode only while the index holds no item record, and unlocks every class; its refusals come in the order of R201. -/
def Obligations.ComplianceRequests : Prop :=
  (∀ (tag : Byte) (s : State), s.taking = true →
     (s.compliant = true → exec (.complianceEnter tag (.fields ())) s = .next (s.emit (replyFrame tag 0x29 .unchanged []))) ∧
     (s.compliant = false → s.slotFree = false →
       exec (.complianceEnter tag (.fields ())) s = .next (s.emit (replyFrame tag 0x29 .auditFull []))) ∧
     (s.compliant = false → s.slotFree = true →
       ∃ t, exec (.complianceEnter tag (.fields ())) s = .next t ∧ KeepsAllBut (.compliance :: .policy :: recordBlocks) s t ∧
         t.compliant = true ∧
         Accepted s t tag 0x29 .ok [] .complianceEntered [Fld.u32 (s.policy.classes.countP (fun e =>
           match e.2.state with | .defined _ => decide (0 < e.2.inUse) | _ => false))] ∧
         (∀ c, (t.policy.cls c).inUse = (s.policy.cls c).inUse ∧ (t.policy.cls c).state =
           match (s.policy.cls c).state with
           | .defined d => if 0 < (s.policy.cls c).inUse then .locked d else .defined d
           | st => st) ∧
         (∀ d, t.policy.domain d = s.policy.domain d) ∧ (∀ e, t.policy.entry e = s.policy.entry e) ∧
         t.policy.flags = s.policy.flags ∧ t.clock.counter = s.clock.counter)) ∧
  (∀ (tag : Byte) (s : State), s.taking = true →
     (s.compliant = false → exec (.complianceLeave tag (.fields ())) s = .next (s.emit (replyFrame tag 0x2A .unchanged []))) ∧
     (s.compliant = true → 1 < s.index.next →
       exec (.complianceLeave tag (.fields ())) s = .next (s.emit (replyFrame tag 0x2A .notBlank []))) ∧
     (s.compliant = true → s.index.next ≤ 1 → s.slotFree = false →
       exec (.complianceLeave tag (.fields ())) s = .next (s.emit (replyFrame tag 0x2A .auditFull []))) ∧
     (s.compliant = true → s.index.next ≤ 1 → s.slotFree = true →
       ∃ t, exec (.complianceLeave tag (.fields ())) s = .next t ∧ KeepsAllBut (.compliance :: .policy :: recordBlocks) s t ∧
         t.compliant = false ∧ Accepted s t tag 0x2A .ok [] .complianceLeft [] ∧
         (∀ c, (t.policy.cls c).inUse = (s.policy.cls c).inUse ∧ (t.policy.cls c).state =
           match (s.policy.cls c).state with
           | .locked d => .defined d
           | st => st) ∧
         (∀ d, t.policy.domain d = s.policy.domain d) ∧ (∀ e, t.policy.entry e = s.policy.entry e) ∧
         t.policy.flags = s.policy.flags ∧ t.clock.counter = s.clock.counter))

/-- RESET is answered OK at once with nothing else changed but that it is taken; a link reset with none taken has no effect; once one is
taken it discards what is volatile, leaves the clock's counter, state, hold and U, and asks the idle modules to identify themselves, a
module in flight later, one at an erase when that erase has ended (R203, R6, R49, R178). Discarded are the frames not sent and the
notice flags: nothing that follows depends on them, and the frames it leaves are start-up's NOTICE frames (R194, R197, R203); page
reads, verifies and the verify that waits for a place (R73); the held pages, and the AUDIT queues, which only the drain channel fills
again where start-up ends in the same step (R178 (3), R190 (1)); the due pause and the AUTO wait, while queue, list and batch record
stay (R154). A PROGRAM in flight then concerns no upload and no page waited for, a READ in flight no requester (R178 (2)). Where no
module is idle start-up ends in that step, with the flags of R178 (6), R182 and R154 and the START_UP record; that every channel then
has the credits of a round that begins, the INGEST credit 1 while F is below SPACE_THROTTLE, is log entry 18 (DEDUCED: R178 (3) says
only that credits are set to the weights); the modules' operations and their `askOwed` and `askAfter` are not stated for that case. That
RESET only marks that it is taken is log entry 12, that a link reset with none taken has no effect log entry 36, that a module asked
holds up start-up log entry 2, the value of `intact` log entry 3, the flag `opportunity` log entry 23. Of the clause on the erase, only
the suspend count 0 is R178's: that an erase at a RESUME is asked after its end, like one in flight, is the model's choice of log entry
30, and that the suspend-failed mark of an erase is kept that of log entry 37, both DESIGN CHOICE; so is what becomes of an IDENTIFY in
flight (log entry 30). The zones and RECLAIM queues it leaves are stated in `PowerOnAndLoss`. -/
def Obligations.ResetAndLinkReset : Prop :=
  (∀ (tag : Byte) (s : State), s.taking = true → exec (.reset tag (.fields ())) s =
      .next { s with link := { s.link with tx := s.link.tx ++ [replyFrame tag 0x2C .ok []], resetTaken := true } }) ∧
  (∀ s : State, s.taking = true → s.link.resetTaken = false → exec .linkReset s = .next s) ∧
  (∀ r : PageRead, Op.orphan (.read r) = .read { r with who := .none }) ∧
  (∀ g live, Op.orphan (.programIngest g live) = .programIngest g false) ∧
  (∀ z n p live, Op.orphan (.programAudit z n p live) = .programAudit z n p false) ∧
  (∀ o : Op, (∀ r, o ≠ .read r) → (∀ g live, o ≠ .programIngest g live) → (∀ z n p live, o ≠ .programAudit z n p live) →
    o.orphan = o) ∧
  ∀ s : State, s.taking = true → s.link.resetTaken = true →
    ∃ t, exec .linkReset s = .next t ∧ KeepsAllBut startBlocks s t ∧
      (∀ tx flags, exec .linkReset { s with link := { s.link with tx := tx, flags := flags } } = .next t) ∧
      (∀ f ∈ t.link.tx, f.ftype = .notice) ∧ t.segs.verifyWait = [] ∧ t.audit.held = [] ∧
      (∀ i, t.audit.drain ≠ some i → (t.media.get i).auditQ = []) ∧
      t.dispo.queue = s.dispo.queue ∧ t.dispo.list = s.dispo.list ∧ t.dispo.batch = s.dispo.batch ∧
      t.dispo.duePause = false ∧ t.dispo.autoWait = false ∧
      t.ingest = { ctxs := [], ready := [] } ∧ t.segs.reads = [] ∧ t.segs.verifies = [] ∧ t.link.resetTaken = false ∧
      t.clock.counter = s.clock.counter ∧ t.clock.state = s.clock.state ∧ t.clock.hold = s.clock.hold ∧
      t.clock.used = s.clock.used ∧ t.media.last = 3 ∧
      (∀ i, (t.media.get i).filling = [] ∧ (t.media.get i).ingestQ = [] ∧ (t.media.get i).readQ = [] ∧
        (t.media.get i).uploads = [] ∧ (t.media.get i).fails = 0 ∧ (t.media.get i).probe = none ∧
        (t.media.get i).markFenced = (s.media.get i).markFenced) ∧
      ((∃ i, (s.media.get i).op = none) →
        (∀ i, (t.media.get i).op = (if (s.media.get i).op = none then some .identify else (s.media.get i).op.map Op.orphan) ∧
          (t.media.get i).askOwed = (s.media.get i).op.isSome ∧
          ∀ after, (after = true ↔ (∃ z, (s.media.get i).op = some (.erase z)) ∨ (s.media.get i).op = some .resume) →
            (t.media.get i).erase = (s.media.get i).erase.map (fun e => { e with count := 0, askAfter := after })) ∧
        t.clock = s.clock ∧
        t.link.power = .starting (chanNos.filter (fun i => (s.media.get i).op.isNone)) .linkReset ∧
        t.link.flags = (if s.clock.state = .unset then 0x400 else 0) ∧
        t.link.tx = (if s.clock.state = .unset ∧ s.settings.notices.getLsbD 10 = true then
          [noticeFrame 0x400 s.settings.notices] else []) ∧
        (∀ i, (t.media.get i).auditQ = []) ∧ t.dispo.opportunity = false ∧
        ∃ intact, t.audit.startOwed =
          some { cause := .linkReset, intact, clock := s.clock.state, second := s.clock.counter } ∧
        t.audit = { s.audit with drain := none, held := [], startOwed := t.audit.startOwed }) ∧
      ((∀ i, (s.media.get i).op ≠ none) → t.link.power = .on ∧ t.dispo.opportunity = s.settings.auto ∧
        ((∀ i, Table.sorted (s.media.get i).zones = true) → ∀ n, t.link.flags.getLsbD n = decide (
          n = 0 ∧ 1024 ≤ t.audit.buffer.length ∨ n = 1 ∧ t.audit.buffer.length = 2048 ∨
            n = 2 ∧ t.media.freeZones < s.settings.throttle ∨ n = 3 ∧ t.media.freeZones ≤ s.settings.reserve ∨
            n = 4 ∧ (∃ i, (t.media.get i).state = .fenced) ∨ n = 5 ∧ (∃ i, (t.media.get i).state = .offline) ∨
            n = 7 ∧ s.dispo.queue ≠ [] ∨ n = 10 ∧ s.clock.state = .unset)) ∧
        ((∀ i, Table.sorted (s.media.get i).zones = true) → ∀ i, (t.media.get i).credits =
          { read := s.settings.readWeight, reclaim := s.settings.reclaimWeight
            ingest := if t.media.freeZones < s.settings.throttle then 1 else s.settings.ingestWeight }) ∧
        (0 < s.audit.counter → s.slotFree = true → t.audit.startOwed = none ∧ ∃ o : StartUpOwed,
          o.cause = .linkReset ∧ o.clock = s.clock.state ∧ o.second = s.clock.counter ∧
          t.audit.buffer = s.audit.buffer.map (fun r => { r with since := s.timer }) ++
            [s.audit.nextRecord s.clock.counter s.timer .startUp o.fields]))

/-- A power-on of an unpowered part: the time base is taken as intact exactly where it reports no loss and the counter is not below the
HWM, with the effects of R4 (1) and (2); what is volatile starts empty (R49, R155, R178), every channel takes the state of its mark, and
its module is asked to identify itself. With power standing it has no effect. Start-up frees every entry that is INBOUND, or STORED with
no refs and no pin, and clears claims, owner and waiters of the others (R73), at a power-on and at a link reset alike; every INGEST_OPEN
zone becomes FULL, a FULL zone without live pages RECLAIMING, and the RECLAIM queue holds the RECLAIMING zones in ascending order but for
one whose erase goes on (R178 (4), (5)). An AUDIT_OPEN zone stays open; but where no module is idle at a link reset start-up ends in that
step, and a drain channel then chosen other than the last used closes that one's (R183, R190 (3)). At the loss of power what is volatile
is lost and the backed clock, index memory and settings stay (section 0.5, R1, R49, R155). That POWER_ON with power standing has no effect
is log entry 36, that the modules' answers are awaited log entry 2, the clock before a first power-on log entry 1, the signal of a day's
advance the flag of log entry 23. -/
def Obligations.PowerOnAndLoss : Prop :=
  ((∀ s : State, s.powered = true → exec .powerOn s = .next s) ∧
   ∀ s : State, s.link.power = .off →
     ∃ t, exec .powerOn s = .next t ∧ KeepsAllBut startBlocks s t ∧
       (s.clock.lost = false → s.clock.hwm ≤ s.clock.counter →
         t.clock = { s.clock with hwm := s.clock.counter } ∧
         t.link.flags = (if dayOf s.clock.hwm < dayOf s.clock.counter then 0x800 else 0) ∧
         t.dispo = { s.dispo with
           duePause := false
           autoWait := false
           opportunity := decide (dayOf s.clock.hwm < dayOf s.clock.counter) && s.settings.auto }) ∧
       (s.clock.lost = true ∨ s.clock.counter < s.clock.hwm →
         t.clock = { counter := s.clock.hwm, phase := s.clock.phase, state := .unset, hold := 0, used := 0, lost := false,
                     hwm := s.clock.hwm } ∧
         t.link.flags = 0x400 ∧ t.dispo = { s.dispo with duePause := false, autoWait := false, opportunity := false }) ∧
       t.link.power = .starting [0, 1, 2, 3] .powerOn ∧ t.ingest = { ctxs := [], ready := [] } ∧ t.segs.reads = [] ∧
       t.segs.verifies = [] ∧ t.media.last = 3 ∧
       (∀ i, (t.media.get i).op = some .identify ∧ (t.media.get i).erase = none ∧ (t.media.get i).readQ = [] ∧
         (t.media.get i).ingestQ = [] ∧ (t.media.get i).auditQ = [] ∧ (t.media.get i).uploads = [] ∧ (t.media.get i).fails = 0 ∧
         (t.media.get i).state = (if (s.media.get i).markFenced then .fenced else .inService) ∧
         (t.media.get i).markFenced = (s.media.get i).markFenced) ∧
       t.audit.buffer = s.audit.buffer ∧ t.audit.counter = s.audit.counter ∧ t.audit.map = s.audit.map) ∧
  (∀ (s : State) (i : Instr) (ref : EntryRef), Table.sorted s.segs.buckets = true → Table.sorted s.segs.overflow = true →
     (i = .powerOn ∧ s.link.power = .off) ∨ (i = .linkReset ∧ s.taking = true ∧ s.link.resetTaken = true) →
     ∃ t, exec i s = .next t ∧ t.segs.entry ref =
       match s.segs.entry ref with
       | some e =>
         if e.stored = true ∧ (e.pinned = true ∨ e.refs ≠ 0) then some { e with claims := 0, owner := none, waiters := [] } else none
       | none => none) ∧
  (∀ (s : State) (i : Instr), Table.sorted s.segs.buckets = true → Table.sorted s.segs.overflow = true →
     (∀ c, Table.sorted (s.media.get c).zones = true) →
     (i = .powerOn ∧ s.link.power = .off) ∨ (i = .linkReset ∧ s.taking = true ∧ s.link.resetTaken = true) →
     ∃ t, exec i s = .next t ∧
       (∀ c z dead, dead = (s.segs.all.map (fun e =>
           if (e.2.stored = false ∨ e.2.pinned = false ∧ e.2.refs = 0) ∧ e.2.loc.chan = c ∧ e.2.loc.zone = z then e.2.loc.count
           else 0)).sum →
         ((t.media.get c).zone z).live = ((s.media.get c).zone z).live - dead ∧
         ((t.media.get c).zone z).wp = ((s.media.get c).zone z).wp ∧
         ((t.media.get c).zone z).owed = ((s.media.get c).zone z).owed ∧
         ((t.media.get c).zone z).state =
           (if ((s.media.get c).zone z).state = .ingestOpen ∨ ((s.media.get c).zone z).state = .full then
             (if ((s.media.get c).zone z).live ≤ dead then .reclaiming else .full)
           else if c = s.audit.drainLast ∧ t.audit.drainLast ≠ s.audit.drainLast ∧ (s.media.get c).zoneIn .auditOpen = some z then
             .auditClosed
           else ((s.media.get c).zone z).state)) ∧
       ((∃ c, (s.media.get c).op = none) ∨ i = .powerOn → t.audit.drainLast = s.audit.drainLast) ∧
       (i = .linkReset → (∀ c, (s.media.get c).op ≠ none) → t.audit.drain = t.media.drainChoice ∧
         t.audit.drainLast = t.audit.drain.getD s.audit.drainLast) ∧
       ∀ c, (t.media.get c).reclaimQ.Pairwise (· < ·) ∧
         ∀ z, z ∈ (t.media.get c).reclaimQ ↔ ((t.media.get c).zone z).state = .reclaiming ∧
           ∀ e, (t.media.get c).erase = some e → e.zone ≠ z) ∧
  (∀ s : State, ∃ t, exec .powerLoss s = .next t ∧ KeepsAllBut [.ingest, .segs, .dispo, .media, .audit, .link] s t ∧
     t.link.power = .off ∧ t.link.tx = [] ∧ t.link.flags = 0 ∧ t.ingest = { ctxs := [], ready := [] } ∧ t.segs.reads = [] ∧
     t.segs.verifies = [] ∧ t.dispo.queue = s.dispo.queue ∧ t.dispo.list = s.dispo.list ∧ t.dispo.batch = s.dispo.batch ∧
     (∀ i, (t.media.get i).op = none ∧ (t.media.get i).zones = (s.media.get i).zones ∧
       (t.media.get i).markFenced = (s.media.get i).markFenced ∧ (t.media.get i).fenceOwed = (s.media.get i).fenceOwed) ∧
     t.audit.buffer = s.audit.buffer ∧ t.audit.counter = s.audit.counter ∧ t.audit.chain = s.audit.chain ∧
     t.audit.map = s.audit.map ∧ t.audit.startOwed = s.audit.startOwed)

/-- A module's answer in start-up: PASS keeps its channel's state, FAIL makes it OFFLINE, its mark FENCED with the fence record owed where
it was not, and its AUDIT_OPEN zone AUDIT_CLOSED (R178 (1), R171 (2)). That an erase in progress of such a module is abandoned, with its
zone at the head of the RECLAIM queue, is log entry 24 (DEDUCED: R165 and R173 (2) say it of a timeout, R178 (1) says nothing of an erase
there). With the last of the answers requests are taken again: every channel has the credits of a new round (R178 (3)), every record of
the buffer is taken as appended now (R190 (2)), the drain channel is chosen and pages are presented (R190 (3)), the owed START_UP record
is appended, behind GENESIS on a blank part (R189), the head of the sweep queue runs (R115), AUTO mode has its opportunity (R154), and
media and drain settle. The flags then raised are exactly AUDIT_HALF and AUDIT_FULL for 1,024 or more and 2,048 records (R182, R190 (4)),
SPACE_LOW, SPACE_RESERVE, CHANNEL_FENCED and CHANNEL_OFFLINE by F and the channels' states (R178 (6), R161), and DISPO_READY for a queue
that is not empty (R154), each newly set one that is enabled with its NOTICE frame. A module whose operation was in flight at the link
reset is asked when that operation completes, an operation of a discarded probe too, an erase when it has ended, suspended in between or
not, start-up ended or not; where that operation times out the channel becomes OFFLINE and the module is not asked (R178 (1)). Of an
IDENTIFY in flight at the link reset, that its PASS has the module asked again and its FAIL is such a timeout is the model's choice
(DESIGN CHOICE, log entry 30). That start-up waits for the modules is log entry 2, that nothing else is issued before the question log
entry 30, that the credits are those of a round that begins log entry 18, the order of presenting and issuing log entry 40. The
opportunity is the flag of log entry 23. -/
def Obligations.StartUpAnswers : Prop :=
  (∀ (s : State) (i : ChanNo) (c : Instr), s.powered = true → (s.media.get i).askOwed = true →
    (∀ e, (s.media.get i).erase = some e → e.askAfter = false ∨ (s.media.get i).op = some (.erase e.zone) ∨
      (s.media.get i).op = some .resume) →
    ((∃ p live, (s.media.get i).op = some (.programIngest p live)) ∧ (∃ pass, c = .programComplete i pass) ∨
      (∃ z n p live, (s.media.get i).op = some (.programAudit z n p live)) ∧ (∃ pass, c = .programComplete i pass) ∨
      (∃ r, (s.media.get i).op = some (.read r)) ∧ (∃ res, c = .readComplete i res) ∨
      (∃ z, (s.media.get i).op = some (.erase z)) ∧ (∃ pass, c = .eraseComplete i pass) ∨
      (s.media.get i).op = some .suspend ∧ (s.media.get i).erase ≠ none ∧ c = .suspendComplete i true ∨
      (s.media.get i).op = some .resume ∧ (s.media.get i).erase ≠ none ∧ c = .resumeComplete i false ∨
      (s.media.get i).probing = false ∧
        ((s.media.get i).op = some .probeErase ∧ (∃ pass, c = .eraseComplete i pass) ∨
          (∃ n, (s.media.get i).op = some (.probeProgram n)) ∧ (∃ pass, c = .programComplete i pass) ∨
          (∃ n, (s.media.get i).op = some (.probeRead n)) ∧ ∃ res, c = .readComplete i res) ∨
      (s.media.get i).op = some .identify ∧ (∀ cs k, s.link.power = .starting cs k → i ∉ cs) ∧ c = .identifyComplete i true) →
    ∃ t, exec c s = .next t ∧ (t.media.get i).op = some .identify ∧ (t.media.get i).askOwed = false ∧
      t.link.power = s.link.power) ∧
  (∀ (s : State) (i : ChanNo) (c : Instr), s.powered = true → (s.media.get i).askOwed = true →
    (∀ cs k, s.link.power = .starting cs k → i ∉ cs) →
    (c = .operationTimeout i ∧ (s.media.get i).op.isSome = true ∨
      c = .identifyComplete i false ∧ (s.media.get i).op = some .identify) →
    ∃ t, exec c s = .next t ∧ (t.media.get i).state = .offline ∧ (t.media.get i).op = none ∧ (t.media.get i).askOwed = false ∧
      t.link.power = s.link.power) ∧
  (∀ c : Channel, c.probing = true ↔ ∃ p, c.probe = some p ∧ p.stage = .inFlight) ∧
  (∀ c d : Channel, d = c.noAnswer →
    d.state = .offline ∧ d.op = none ∧ d.erase = none ∧ d.markFenced = true ∧
    d.fenceOwed = (if c.markFenced then c.fenceOwed else some .timeout) ∧
    d.reclaimQ = (match c.erase with | some e => [e.zone] | none => []) ++ c.reclaimQ ∧
    (∀ z, d.zone z = if c.zoneIn .auditOpen = some z then { c.zone z with state := .auditClosed } else c.zone z) ∧
    { d with state := c.state, op := c.op, erase := c.erase, markFenced := c.markFenced, fenceOwed := c.fenceOwed,
             reclaimQ := c.reclaimQ, zones := c.zones } = c) ∧
  ∀ (s : State) (i : ChanNo) (pass : Bool) (cs : List ChanNo) (k : StartCause),
    s.link.power = .starting cs k → i ∈ cs → (s.media.get i).op = some .identify →
    ∃ t, exec (.identifyComplete i pass) s = .next t ∧ KeepsAllBut startBlocks s t ∧
      (t.media.get i).state = (if pass then (s.media.get i).state else .offline) ∧
      (t.media.get i).markFenced = (!pass || (s.media.get i).markFenced) ∧
      (t.media.get i).fenceOwed =
        (if pass ∨ (s.media.get i).markFenced then (s.media.get i).fenceOwed else some .timeout) ∧
      (cs.filter (fun j => j != i) ≠ [] → t.link.power = .starting (cs.filter (fun j => j != i)) k ∧ t.audit = s.audit ∧
        t.clock = s.clock ∧ t.link.flags = s.link.flags ∧ t.link.tx = s.link.tx ∧
        t.media = s.media.set i (if pass then { s.media.get i with op := none } else (s.media.get i).noAnswer)) ∧
      (∀ (m : Media) (f : Nat) (cr : Credits) (w : Store), cs.filter (fun j => j != i) = [] →
        m = s.media.set i (if pass then { s.media.get i with op := none } else (s.media.get i).noAnswer) → f = m.freeZones →
        cr = { read := s.settings.readWeight, reclaim := s.settings.reclaimWeight
               ingest := if f < s.settings.throttle then 1 else s.settings.ingestWeight } →
        w = Store.present s.timer
          { media := { last := m.last, c0 := { m.c0 with credits := cr }, c1 := { m.c1 with credits := cr }
                       c2 := { m.c2 with credits := cr }, c3 := { m.c3 with credits := cr } }
            audit := { s.audit with buffer := s.audit.buffer.map (fun r => { r with since := s.timer }) } } →
        Settles t w.media { w.audit with
          buffer := t.audit.buffer, counter := t.audit.counter, chain := t.audit.chain, startOwed := t.audit.startOwed } ∧
        (∃ more, t.audit.buffer = s.audit.buffer.map (fun r => { r with since := s.timer }) ++ more) ∧
        ((∀ j, Table.sorted (s.media.get j).zones = true) → ∀ n, t.link.flags.getLsbD n = (s.link.flags.getLsbD n || decide (
          n = 0 ∧ 1024 ≤ t.audit.buffer.length ∨ n = 1 ∧ t.audit.buffer.length = 2048 ∨
            n = 2 ∧ (f < s.settings.throttle ∨ t.media.freeZones < s.settings.throttle) ∨
            n = 3 ∧ (f ≤ s.settings.reserve ∨ t.media.freeZones ≤ s.settings.reserve) ∨
            n = 4 ∧ (∃ j, (m.get j).state = .fenced) ∨ n = 5 ∧ (∃ j, (m.get j).state = .offline) ∨
            n = 7 ∧ s.dispo.queue ≠ []))) ∧
        ∃ more, t.link.tx = s.link.tx ++ more ∧ (∀ g ∈ more, g.ftype = .notice) ∧
          ∀ n : Notice, s.link.flags.getLsbD n.bit = false → t.link.flags.getLsbD n.bit = true →
            s.settings.notices.getLsbD n.bit = true →
            ∃ mask : BitVec 12, mask.getLsbD n.bit = true ∧ noticeFrame mask s.settings.notices ∈ more) ∧
      (cs.filter (fun j => j != i) = [] →
        t.link.power = .on ∧ (s.index.sweeps ≠ [] → t.index.run.isSome = true) ∧
        (s.dispo.queue ≠ [] → t.link.flags.getLsbD 7 = true) ∧ (s.settings.auto = true → t.dispo.opportunity = true) ∧
        ∀ o, s.audit.startOwed = some o → s.slotFree = true →
          t.audit.startOwed = none ∧ t.clock.hwm = s.clock.counter ∧
          (0 < s.audit.counter →
            t.audit.buffer = s.audit.buffer.map (fun r => { r with since := s.timer }) ++
              [s.audit.nextRecord s.clock.counter s.timer .startUp o.fields] ∧
            t.audit.counter = s.audit.counter + 1) ∧
          (s.audit.counter = 0 → s.audit.buffer = [] → s.audit.map = [] →
            t.audit.counter = 2 ∧ t.audit.buffer.map (·.kind) = [.genesis, .startUp] ∧
            t.audit.buffer.map (·.seq) = [0, 1]))

/-! ### Chapter 1 -/

/-- An elapsed second of a time base that marks it: TIME_BASE_SECOND does what R1, R2 and R14 give the clock state, and what R16 or R17
gives a day rollover, whose signal in AUTO mode is an AUTO release opportunity (R147 (1)). HOLD_END, DAY_ROLLOVER and
DAY_ROLLOVER_UNPOWERED are that second where it is the one they name. The time base reports loss while the part is powered (R5).
Unpowered, the loss is found at the power-on (R4). That the timers count a second of a powered part by 1 is log entry 7, that these rows
are one second under several names log entry 9, a loss without power log entry 31; the opportunity is the flag of log entry 23. -/
def Obligations.TimeBase : Prop :=
  (∀ s : State, s.rolloverNext = true ↔
    s.clock.state = .running ∧ s.clock.counter < 6311433599 ∧ (s.clock.counter + 1) % 86400 = 0) ∧
  (∀ s : State, s.marks = true →
     ∃ t, SecondPassed s t ∧ exec .timeBaseSecond s = .next t ∧
       (s.clock.state = .held → s.clock.hold = 1 → exec .holdEnd s = .next t ∧ t.clock.state = .running) ∧
       (s.rolloverNext = true → s.powered = true → exec .dayRollover s = .next t) ∧
       (s.rolloverNext = true → s.powered = false → exec .dayRolloverUnpowered s = .next t)) ∧
  ((∀ s : State, s.powered = true → exec .timeBaseLoss s = .next { s with
       clock := { counter := s.clock.counter, phase := s.clock.phase, state := .unset, hold := 0, used := 0, lost := false,
                  hwm := s.clock.counter }
       link := s.link.raise s.settings.notices .clockUnset }) ∧
   ∀ s : State, s.powered = false → exec .timeBaseLoss s = .next { s with clock := { s.clock with lost := true } })

/-- CLOCK_READ is answered OK in every clock state with the fields of R7 in their order, and its only other effect is the counter
written into the HWM (R3 (3)). CLOCK_SET: its refusals in order, and the counter, state, hold and U that an accepted one leaves, with
one day rollover's notice and signal where today is then later than the day of the HWM (R8, R9). Field widths that section 10.6 does
not give are log entry 13's. The signal to the Disposition Unit is seen as the flag of log entry 23, the sub-second phase is log entry
10. -/
def Obligations.ClockReadAndSet : Prop :=
  (∀ (tag : Byte) (s : State), s.taking = true → exec (.clockRead tag (.fields ())) s =
    .next { s with
      clock := { s.clock with hwm := s.clock.counter }
      link := { s.link with tx := s.link.tx ++ [replyFrame tag 0x0A .ok
        [Fld.u64 s.clock.counter, Fld.u32 (s.clock.counter / 86400), Fld.u16 (dateOf (s.clock.counter / 86400)).1,
          Fld.u8 (dateOf (s.clock.counter / 86400)).2.1, Fld.u8 (dateOf (s.clock.counter / 86400)).2.2,
          Fld.clockState s.clock.state, Fld.u32 s.clock.hold, Fld.u32 s.clock.used, Fld.u32 s.settings.allowance,
          Fld.u64 s.clock.counter]] } }) ∧
  ∀ (tag : Byte) (T : Nat) (s : State), s.taking = true →
    (s.clock.state ≠ .unset → exec (.clockSet tag (.fields T)) s = .next (s.emit (replyFrame tag 0x0B .badContext []))) ∧
    (s.clock.state = .unset → s.slotFree = false →
      exec (.clockSet tag (.fields T)) s = .next (s.emit (replyFrame tag 0x0B .auditFull []))) ∧
    (s.clock.state = .unset → s.slotFree = true → ∀ high v,
      high = (if s.compliant then min (s.clock.hwm + 2678400) 6311433599 else 6311433599) →
      v = max s.clock.hwm (min T high) →
      ∃ t, exec (.clockSet tag (.fields T)) s = .next t ∧ KeepsAllBut (.dispo :: recordBlocks) s t ∧
        Accepted s t tag 0x0B (if v = T then .ok else .clamped) [Fld.u64 v] .clockSet [Fld.u64 T, Fld.u64 v] ∧
        t.clock = { counter := v, phase := 0, state := .running, hold := 0
                    used := if s.clock.hwm / 86400 < v / 86400 then 0 else s.settings.allowance
                    lost := s.clock.lost, hwm := v } ∧
        (s.clock.hwm / 86400 < v / 86400 → t.link.flags.getLsbD 11 = true ∧
          t.dispo = { s.dispo with opportunity := s.dispo.opportunity || s.settings.auto }) ∧
        (v / 86400 ≤ s.clock.hwm / 86400 → t.link.flags.getLsbD 11 = s.link.flags.getLsbD 11 ∧ t.dispo = s.dispo))

/-- CLOCK_ADJUST: its refusals in order (R10), and an accepted forward correction with its step, U and day rollover (R11),
backward correction with its lag (R12), or adjust to the present value (R13). The direction byte and the widths of step and lag are
log entry 13's. The signal to the Disposition Unit is seen as the flag of log entry 23. -/
def Obligations.ClockAdjust : Prop :=
  ∀ (tag : Byte) (T : Nat) (s : State), s.taking = true →
    (s.clock.state = .unset → exec (.clockAdjust tag (.fields T)) s = .next (s.emit (replyFrame tag 0x0C .clockUnset []))) ∧
    (s.clock.state ≠ .unset → s.slotFree = false →
      exec (.clockAdjust tag (.fields T)) s = .next (s.emit (replyFrame tag 0x0C .auditFull []))) ∧
    (s.clock.state ≠ .unset → s.slotFree = true →
      ∃ t, exec (.clockAdjust tag (.fields T)) s = .next t ∧ KeepsAllBut (.dispo :: recordBlocks) s t ∧
        (∀ st step, s.clock.counter < T →
          step = min (T - s.clock.counter) (min (s.settings.allowance - s.clock.used) (6311433599 - s.clock.counter)) →
          st = (if step = T - s.clock.counter then Status.ok else .clamped) →
          Accepted s t tag 0x0C st [Fld.u64 (s.clock.counter + step), Fld.u32 step, Fld.clockState .running] .clockAdjusted
            [Fld.u64 T, Fld.u64 s.clock.counter, Fld.u8 0, Fld.u32 step, Fld.u8 st.code, Fld.clockState .running] ∧
          t.clock = { s.clock with
            counter := s.clock.counter + step, state := .running, hold := 0, hwm := s.clock.counter + step
            used := if s.clock.counter / 86400 < (s.clock.counter + step) / 86400 then 0 else s.clock.used + step } ∧
          (s.clock.counter / 86400 < (s.clock.counter + step) / 86400 → t.link.flags.getLsbD 11 = true ∧
            t.dispo = { s.dispo with opportunity := s.dispo.opportunity || s.settings.auto }) ∧
          ((s.clock.counter + step) / 86400 = s.clock.counter / 86400 →
            t.link.flags.getLsbD 11 = s.link.flags.getLsbD 11 ∧ t.dispo = s.dispo)) ∧
        (∀ st lag, T < s.clock.counter → lag = min (s.clock.counter - T) s.settings.allowance →
          st = (if lag = s.clock.counter - T then Status.ok else .clamped) →
          Accepted s t tag 0x0C st [Fld.u64 s.clock.counter, Fld.u32 lag, Fld.clockState (if lag = 0 then .running else .held)]
            .clockAdjusted [Fld.u64 T, Fld.u64 s.clock.counter, Fld.u8 1, Fld.u32 lag, Fld.u8 st.code,
              Fld.clockState (if lag = 0 then .running else .held)] ∧
          t.clock = { s.clock with
            state := if lag = 0 then .running else .held, hold := lag, hwm := s.clock.counter } ∧ t.dispo = s.dispo) ∧
        (T = s.clock.counter →
          Accepted s t tag 0x0C .unchanged [Fld.u64 T, Fld.u32 0, Fld.clockState .running] .clockAdjusted
            [Fld.u64 T, Fld.u64 T, Fld.u8 2, Fld.u32 0, Fld.u8 0x03, Fld.clockState .running] ∧
          t.clock = { s.clock with state := .running, hold := 0, hwm := s.clock.counter } ∧ t.dispo = s.dispo))

/-- The conversions between dates and day numbers are exact inverses over the range 2000-01-01 to 2199-12-31 (R18, R19). -/
def Obligations.DatesAreInverse : Prop :=
  (∀ y m d, 2000 ≤ y → y ≤ 2199 → 1 ≤ m → m ≤ 12 → 1 ≤ d → d ≤ monthLen y m →
    dayNumber y m d ≤ 73048 ∧ dateOf (dayNumber y m d) = (y, m, d)) ∧
  ∀ n, n ≤ 73048 →
    2000 ≤ (dateOf n).1 ∧ (dateOf n).1 ≤ 2199 ∧ 1 ≤ (dateOf n).2.1 ∧ (dateOf n).2.1 ≤ 12 ∧ 1 ≤ (dateOf n).2.2 ∧
      (dateOf n).2.2 ≤ monthLen (dateOf n).1 (dateOf n).2.1 ∧
      dayNumber (dateOf n).1 (dateOf n).2.1 (dateOf n).2.2 = n

/-- The sent-day clamp of R20: the raw sent day clamped to the range from S - B (0 where that is below 0) to S, with SENT_CLAMPED
reported exactly where the clamp changed it. The class expiry of R21 and R22: NEVER for a permanent class, PENDING for an EVENT class
whose key is AWAITING, and otherwise from the anchor day the date, calendar add with the month-end clamp, days and floor, NEVER past the
end of 2199; NO_EVENT_KEY exactly where an EVENT class that is not permanent meets an item with no key. The combination over a class set
is NEVER where any class expiry is, otherwise PENDING where any is, otherwise the greatest day; it reports NO_EVENT_KEY where any class
expiry does (R92). The expiry that commits and sweep steps give an item is that combination over the classes of its set, each with the
definition in force, DEFINED or LOCKED, and with the posted day of the item's event key as the index holds it (R21, R92): none for an
item with no key, AWAITING where no day is posted. The merge is TABLE 4-4's, and never moves an expiry earlier (R93). -/
def Obligations.Expiries : Prop :=
  (∀ sent S B raw, raw = (if 73048 < sent / 86400 then 73048 else sent / 86400) →
     sentClamp sent S B =
       if raw < S - B then (S - B, true) else if S < raw then (S, true) else (raw, false)) ∧
  (∀ (c : ClassDef) (S sent : Nat) (key : Option (Option Nat)),
     (c.permanent = true → classExpiry c S sent key = (.never, false)) ∧
     (c.permanent = false → c.anchor = .event → key = some none → classExpiry c S sent key = (.pending, false)) ∧
     ∀ A, c.permanent = false →
       (c.anchor = .ingest ∧ A = S ∨ c.anchor = .sent ∧ A = sent ∨ c.anchor = .event ∧ (key = none ∧ A = S ∨ key = some (some A))) →
       (classExpiry c S sent key).2 = decide (c.anchor = .event ∧ key = none) ∧
       ∀ y m d y2 m2 d2 C, dateOf A = (y, m, d) → y2 = y + c.py + (m - 1 + c.pm) / 12 → m2 = (m - 1 + c.pm) % 12 + 1 →
         d2 = min d (monthLen y2 m2) → C = dayNumber y2 m2 d2 + c.pd →
         (classExpiry c S sent key).1 =
           if 2199 < y2 ∨ 73048 < C ∨ 73048 < S + c.fd then .never else .day (max C (S + c.fd))) ∧
  ((∀ n : Expiry, Expiry.merge .pending n = n) ∧ (∀ a b : Nat, Expiry.merge (.day a) (.day b) = .day (max a b)) ∧
   (∀ a : Nat, Expiry.merge (.day a) .pending = .day a ∧ Expiry.merge (.day a) .never = .never) ∧
   (∀ n : Expiry, Expiry.merge .never n = .never) ∧ ∀ old new : Expiry, Expiry.notEarlier old (old.merge new)) ∧
  (∀ (p : Policy) (cs : List Nat) (ds : List ClassDef) (S sent : Nat) (key : Option (Option Nat)), ds.length = cs.length →
     (∀ (n c : Nat) (d : ClassDef), cs[n]? = some c → ds[n]? = some d → (p.cls c).state = .defined d ∨ (p.cls c).state = .locked d) →
     itemExpiry p cs S sent key = combineAll (ds.map (fun d => classExpiry d S sent key))) ∧
  (∀ x : Index, x.keyState none = none ∧
     ∀ k, (x.event k = none → x.keyState (some k) = some none) ∧ ∀ e, x.event k = some e → x.keyState (some k) = some e.posted) ∧
  ∀ es : List (Expiry × Bool), es ≠ [] →
    ((∃ e ∈ es, e.1 = .never) → (combineAll es).1 = .never) ∧
    ((∀ e ∈ es, e.1 ≠ .never) → (∃ e ∈ es, e.1 = .pending) → (combineAll es).1 = .pending) ∧
    ((∀ e ∈ es, e.1 ≠ .never ∧ e.1 ≠ .pending) →
      ∃ d, (combineAll es).1 = .day d ∧ (∃ e ∈ es, e.1 = .day d) ∧ ∀ e ∈ es, ∃ a, a ≤ d ∧ e.1 = .day a) ∧
    (combineAll es).2 = es.any (·.2)

/-! ### Chapters 2 and 3 -/

/-- ITEM_OPEN answers the first refusal of TABLE 2-2 that applies, and changes nothing (R26). An ITEM_OPEN that passes every
check takes the lowest-numbered FREE context under its next generation, RECEIVING with EMPTY slots, the domain's dedup group
and a running deadline, enters an absent event key as AWAITING, and answers OK with the context reference (R26, R27, R24). -/
def Obligations.ItemOpenOutcome : Prop :=
  (∀ (g : Ingest) (x : Index) (k : Option Key),
     g.openCount = (List.range 16).countP (fun n => (g.ctx n).body.isSome) ∧
     (g.lowestFree = none ↔ ∀ n, n ≤ 15 → (g.ctx n).body ≠ none) ∧
     (x.lacks k = true ↔ ∃ y, k = some y ∧ x.event y = none)) ∧
  (∀ (tag : Byte) (q : ItemOpen) (s : State) (st : Status), s.taking = true →
     st = (if s.clock.state = .unset then .clockUnset
       else if q.parties.length = 0 ∨ 128 < q.parties.length ∨ q.segCount = 0 ∨ 256 < q.segCount ∨ 15 < q.domain then .badField
       else if (s.policy.domain q.domain).active = false then .domainUnused
       else if 16777215 ≤ (s.index.next - 1) + s.ingest.openCount then .indexFull
       else if s.index.lacks q.event = true ∧ 65536 ≤ s.index.events.length then .eventTableFull
       else if s.ingest.lowestFree = none then .noContext
       else .ok) → st ≠ .ok →
     exec (.itemOpen tag (.fields q)) s = .next (s.emit (replyFrame tag 0x01 st []))) ∧
  (∀ (tag : Byte) (q : ItemOpen) (s : State) (c : Nat), s.taking = true → s.clock.state ≠ .unset →
     1 ≤ q.parties.length → q.parties.length ≤ 128 → 1 ≤ q.segCount → q.segCount ≤ 256 → q.domain ≤ 15 →
     (s.policy.domain q.domain).active = true → (s.index.next - 1) + s.ingest.openCount < 16777215 →
     (∀ k, q.event = some k → s.index.event k = none → s.index.events.length < 65536) →
     c ≤ 15 → (s.ingest.ctx c).body = none → (∀ n, n < c → (s.ingest.ctx n).body ≠ none) →
     ∃ t, exec (.itemOpen tag (.fields q)) s = .next t ∧ KeepsAllBut [.ingest, .index, .link] s t ∧
       t.ingest.ctx c =
         { gen := ((s.ingest.ctx c).gen + 1) % 65536
           body := some {
             committing := false
             env := { domain := q.domain, parties := q.parties, sent := q.sent, tags := q.tags, event := q.event
                      segCount := q.segCount }
             group := (s.policy.domain q.domain).group
             slots := List.replicate q.segCount .empty
             deadline := .running (s.timer + s.settings.timeout) } } ∧
       (∀ n, n ≠ c → t.ingest.ctx n = s.ingest.ctx n) ∧ t.ingest.ready = s.ingest.ready ∧
       (∀ k, t.index.event k =
         if q.event = some k ∧ s.index.event k = none then some { posted := none, items := [] } else s.index.event k) ∧
       (∀ n, t.index.item n = s.index.item n) ∧ t.index.next = s.index.next ∧ t.index.calendar = s.index.calendar ∧
       t.index.sweeps = s.index.sweeps ∧ t.index.run = s.index.run ∧
       t.link = { s.link with
         tx := s.link.tx ++ [replyFrame tag 0x01 .ok [Fld.u8 c, Fld.u16 (((s.ingest.ctx c).gen + 1) % 65536)]] })

/-- SEG_DECLARE on a context that a reference names: the first refusal of R28 that applies, with the deadline restart of R25 alone. One
that passes the checks has the outcome and the effect of TABLE 3-2: KNOWN adds a claim and makes the slot READY, WAIT appends the slot
to the waiters, SEND inserts an INBOUND entry at the placement granted, and the refusals leave the slot EMPTY and the table as it was
(R29, R53 to R57); each of them leaves media and drain as the end of the event settles them (R166, R184). The lookup searches the eight
ways of the one bucket that the first 17 bits of the digest and the dedup group give (R52, R53); an insert takes the lowest FREE way of
that bucket, else the lowest FREE overflow entry, else none is available (R54). A segment of n bytes has as many pages as hold n bytes
(section 0.5.4). -/
def Obligations.SegDeclareOutcome : Prop :=
  (∀ n, 1 ≤ n → (pagesOf n - 1) * 16384 < n ∧ n ≤ pagesOf n * 16384) ∧
  (∀ (t : Segs) (d : Digest) (length group b : Nat), b = bucketOf d group →
    (∀ b0 b1 b2 more, digestBytes d = b0 :: b1 :: b2 :: more →
      b = (b0.toNat * 512 + b1.toNat * 2 + (if 0x80 ≤ b2.toNat then 1 else 0) + 4099 * group) % 131072) ∧
    (t.lookup d length group = none ↔ ∀ w e, w < 8 → t.entry (.bucket (b * 8 + w)) = some e →
      e.digest ≠ d ∨ e.length ≠ length ∨ e.group ≠ group) ∧
    (∀ ref, t.lookup d length group = some ref → ∃ w e, w < 8 ∧ ref = .bucket (b * 8 + w) ∧ t.entry ref = some e ∧
      e.digest = d ∧ e.length = length ∧ e.group = group) ∧
    (∀ w, w < 8 → t.entry (.bucket (b * 8 + w)) = none → (∀ v, v < w → t.entry (.bucket (b * 8 + v)) ≠ none) →
      t.freeEntry d group = some (.bucket (b * 8 + w))) ∧
    ((∀ w, w < 8 → t.entry (.bucket (b * 8 + w)) ≠ none) →
      (∀ n, n < 8192 → t.entry (.overflow n) = none → (∀ m, m < n → t.entry (.overflow m) ≠ none) →
        t.freeEntry d group = some (.overflow n)) ∧
      ((∀ n, n < 8192 → t.entry (.overflow n) ≠ none) → t.freeEntry d group = none))) ∧
  (∀ (tag : Byte) (q : SegDeclare) (s : State) (o : OpenCtx), s.taking = true → s.ingest.named q.ref = some o →
    (o.committing = true → exec (.segDeclare tag (.fields q)) s =
      .next ((s.touch q.ref.ctx o).emit (replyFrame tag 0x02 .badContext []))) ∧
    (o.committing = false → o.env.segCount ≤ q.slot → exec (.segDeclare tag (.fields q)) s =
      .next ((s.touch q.ref.ctx o).emit (replyFrame tag 0x02 .badSlot []))) ∧
    (o.committing = false → q.slot < o.env.segCount →
      o.slots[q.slot]? ≠ some .empty ∨ q.length = 0 ∨ 16777216 < q.length →
      exec (.segDeclare tag (.fields q)) s = .next ((s.touch q.ref.ctx o).emit (replyFrame tag 0x02 .badField [])))) ∧
  ∀ (tag : Byte) (q : SegDeclare) (s : State) (o : OpenCtx), s.taking = true → s.ingest.named q.ref = some o →
    o.committing = false → q.slot < o.env.segCount → o.slots[q.slot]? = some .empty → 1 ≤ q.length → q.length ≤ 16777216 →
    ∃ t, exec (.segDeclare tag (.fields q)) s = .next t ∧ KeepsAllBut uploadBlocks s t ∧
      (∀ ref e, s.segs.lookup q.digest q.length o.group = some ref → s.segs.entry ref = some e → e.stored = true →
        (e.claims < 16 →
          Replied s t tag 0x02 .known [] ∧ t.segs = s.segs.put ref { e with claims := e.claims + 1 } ∧
          SlotsBecome s t q.ref.ctx o
            (o.slots.set q.slot (.ready { digest := q.digest, length := q.length, ref := ref })) false ∧
          Settles t s.media s.audit) ∧
        (16 ≤ e.claims → Replied s t tag 0x02 .busy [] ∧ t.segs = s.segs ∧ SlotsBecome s t q.ref.ctx o o.slots false ∧
          Settles t s.media s.audit)) ∧
      (∀ ref e, s.segs.lookup q.digest q.length o.group = some ref → s.segs.entry ref = some e → e.stored = false →
        (e.waiters.length < 15 →
          Replied s t tag 0x02 .wait [] ∧
          t.segs = s.segs.put ref
            { e with waiters := e.waiters ++ [{ ctx := q.ref.ctx, gen := q.ref.gen, slot := q.slot }] } ∧
          SlotsBecome s t q.ref.ctx o
            (o.slots.set q.slot (.waiting { digest := q.digest, length := q.length, ref := ref })) false ∧
          Settles t s.media s.audit) ∧
        (15 ≤ e.waiters.length →
          Replied s t tag 0x02 .busy [] ∧ t.segs = s.segs ∧ SlotsBecome s t q.ref.ctx o o.slots false ∧
          Settles t s.media s.audit)) ∧
      (s.segs.lookup q.digest q.length o.group = none → s.segs.freeEntry q.digest o.group = none →
        Replied s t tag 0x02 .tableFull [] ∧ t.segs = s.segs ∧ SlotsBecome s t q.ref.ctx o o.slots false ∧
          Settles t s.media s.audit) ∧
      ∀ ref, s.segs.lookup q.digest q.length o.group = none → s.segs.freeEntry q.digest o.group = some ref →
        (s.media.place s.settings (pagesOf q.length) ref = none →
          Replied s t tag 0x02 .noSpace [] ∧ t.segs = s.segs ∧ SlotsBecome s t q.ref.ctx o o.slots false ∧
            Settles t s.media s.audit) ∧
        ∀ m l, s.media.place s.settings (pagesOf q.length) ref = some (m, l) →
          Replied s t tag 0x02 .send [] ∧
          t.segs = s.segs.put ref
            { stored := false, digest := q.digest, group := o.group, length := q.length, loc := l, refs := 0, pinned := false
              claims := 0, owner := some { ctx := q.ref.ctx, gen := q.ref.gen, slot := q.slot }, waiters := [] } ∧
          SlotsBecome s t q.ref.ctx o
            (o.slots.set q.slot (.sending { digest := q.digest, length := q.length, ref := ref } 0 Sha.start)) false ∧
          Settles t m s.audit

/-- SEG_DATA on a context that a reference names: BAD_SLOT where the slot is out of range or not SENDING, BAD_FIELD for a byte count of
0 or above 4,096, OUT_OF_ORDER with the bytes received, BAD_FIELD past the declared length, BUSY without a staging page, each with the
deadline restart of R25 alone (R30). Where it is accepted the bytes go into the running digest and the staging pages; the last byte
makes the slot WRITING on a match, the segment's last page handed over, and on a mismatch EMPTY, with the commit cancelled, its pages
withdrawn and dead, and the upload handed over to its waiters, or the entry FREE where nobody waits (R31 to R33, R37, R60, R61). The
bytes go to the end of their staging pages, at most two; a page other than the last that they fill leaves for the tail of the INGEST
queue, and so does a page handed over; a withdrawal takes the filling and queued pages of a run and its upload (R31, R32, R162). Pages
that die lower the zone's live count, and a FULL zone then without live pages becomes RECLAIMING at the tail of its queue (R158). The
bytes reach a page without a staging page where they begin a page or run into the next one; of a channel's 64 staging pages those
filling, queued and being programmed for an upload are not free (R162). -/
def Obligations.SegDataOutcome : Prop :=
  (∀ n k, 1 ≤ k → k ≤ 4096 → newPages n k = if n % 16384 = 0 ∨ n / 16384 < (n + k - 1) / 16384 then 1 else 0) ∧
  (∀ c : Channel,
    (∀ g, c.op = some (.programIngest g true) → c.stagingFree = 64 - (c.filling.length + c.ingestQ.length + 1)) ∧
    ((∀ g, c.op ≠ some (.programIngest g true)) → c.stagingFree = 64 - (c.filling.length + c.ingestQ.length))) ∧
  (∀ (c c' : Channel) (l : Loc) (n page room : Nat) (bs old : List Byte), page = l.first + n / 16384 → room = 16384 - n % 16384 →
    old = (c.filled l.zone page).getD [] → 1 ≤ bs.length → bs.length ≤ 4096 → c' = c.stage l n bs →
    { c' with filling := c.filling, ingestQ := c.ingestQ } = c ∧
    (bs.length < room ∨ bs.length = room ∧ l.count ≤ n / 16384 + 1 →
      c'.filled l.zone page = some (old ++ bs) ∧ c'.ingestQ = c.ingestQ ∧
      ∀ z p, ¬(z = l.zone ∧ p = page) → c'.filled z p = c.filled z p) ∧
    (room ≤ bs.length → n / 16384 + 1 < l.count →
      c'.ingestQ = c.ingestQ ++ [{ zone := l.zone, page, data := old ++ bs.take room }] ∧ c'.filled l.zone page = none ∧
      c'.filled l.zone (page + 1) =
        (if room < bs.length then some ((c.filled l.zone (page + 1)).getD [] ++ bs.drop room) else c.filled l.zone (page + 1)) ∧
      ∀ z p, ¬(z = l.zone ∧ (p = page ∨ p = page + 1)) → c'.filled z p = c.filled z p)) ∧
  (∀ (c : Channel) (z p : Nat), (c.filled z p = none → c.handOver z p = c) ∧
    ∀ bs c', c.filled z p = some bs → c' = c.handOver z p →
      { c' with filling := c.filling, ingestQ := c.ingestQ } = c ∧ c'.ingestQ = c.ingestQ ++ [{ zone := z, page := p, data := bs }] ∧
      c'.filled z p = none ∧ ∀ y k, ¬(y = z ∧ k = p) → c'.filled y k = c.filled y k) ∧
  (∀ (m : Media) (l : Loc) (c w d : Channel) (left : Nat), c = m.get l.chan → w = (m.withdraw l).get l.chan →
    d = (m.deadPages l).get l.chan → left = (c.zone l.zone).live - l.count → Table.sorted c.zones = true →
    (m.withdraw l).last = m.last ∧ (m.deadPages l).last = m.last ∧
    (∀ i, i ≠ l.chan → (m.withdraw l).get i = m.get i ∧ (m.deadPages l).get i = m.get i) ∧
    { w with filling := c.filling, ingestQ := c.ingestQ, uploads := c.uploads } = c ∧
    w.filling.Sublist c.filling ∧ w.ingestQ.Sublist c.ingestQ ∧ w.uploads.Sublist c.uploads ∧
    (∀ g, (g ∈ w.filling ↔ g ∈ c.filling ∧ ¬l.covers g) ∧ (g ∈ w.ingestQ ↔ g ∈ c.ingestQ ∧ ¬l.covers g)) ∧
    (∀ u, u ∈ w.uploads ↔ u ∈ c.uploads ∧ ¬(u.zone = l.zone ∧ u.first = l.first)) ∧
    { d with zones := c.zones, reclaimQ := c.reclaimQ } = c ∧ (∀ y, y ≠ l.zone → d.zone y = c.zone y) ∧
    ((c.zone l.zone).state = .full → left = 0 →
      d.zone l.zone = { c.zone l.zone with live := 0, state := .reclaiming } ∧ d.reclaimQ = c.reclaimQ ++ [l.zone]) ∧
    ((c.zone l.zone).state ≠ .full ∨ left ≠ 0 →
      d.zone l.zone = { c.zone l.zone with live := left } ∧ d.reclaimQ = c.reclaimQ)) ∧
  (∀ (tag : Byte) (q : SegData) (s : State) (o : OpenCtx), s.taking = true → s.ingest.named q.ref = some o →
    ((∀ d n sha, o.slots[q.slot]? ≠ some (.sending d n sha)) → exec (.segData tag (.fields q)) s =
      .next ((s.touch q.ref.ctx o).emit (replyFrame tag 0x03 .badSlot []))) ∧
    ∀ d n sha e, o.slots[q.slot]? = some (.sending d n sha) → s.segs.entry d.ref = some e →
      q.data.length = 0 ∨ 4096 < q.data.length → exec (.segData tag (.fields q)) s =
        .next ((s.touch q.ref.ctx o).emit (replyFrame tag 0x03 .badField []))) ∧
  ∀ (tag : Byte) (q : SegData) (s : State) (o : OpenCtx) (d : Decl) (n : Nat) (sha : Sha) (e : SegEntry), s.taking = true →
    s.ingest.named q.ref = some o → o.slots[q.slot]? = some (.sending d n sha) → s.segs.entry d.ref = some e →
    1 ≤ q.data.length → q.data.length ≤ 4096 →
    (q.offset ≠ n → exec (.segData tag (.fields q)) s =
      .next ((s.touch q.ref.ctx o).emit (replyFrame tag 0x03 .outOfOrder [Fld.u32 n]))) ∧
    (q.offset = n → d.length < n + q.data.length → exec (.segData tag (.fields q)) s =
      .next ((s.touch q.ref.ctx o).emit (replyFrame tag 0x03 .badField []))) ∧
    (q.offset = n → n + q.data.length ≤ d.length → (s.media.get e.loc.chan).stagingFree < newPages n q.data.length →
      exec (.segData tag (.fields q)) s = .next ((s.touch q.ref.ctx o).emit (replyFrame tag 0x03 .busy []))) ∧
    (q.offset = n → n + q.data.length ≤ d.length → newPages n q.data.length ≤ (s.media.get e.loc.chan).stagingFree →
      ∃ t, exec (.segData tag (.fields q)) s = .next t ∧ KeepsAllBut uploadBlocks s t ∧
        (n + q.data.length < d.length →
          Replied s t tag 0x03 .accepted [Fld.u32 (n + q.data.length)] ∧ t.segs = s.segs ∧
          SlotsBecome s t q.ref.ctx o (o.slots.set q.slot (.sending d (n + q.data.length) (sha.update q.data))) o.committing ∧
          Settles t (s.media.set e.loc.chan ((s.media.get e.loc.chan).stage e.loc n q.data)) s.audit) ∧
        (n + q.data.length = d.length → (sha.update q.data).finish = d.digest →
          Replied s t tag 0x03 .accepted [Fld.u32 d.length] ∧ t.segs = s.segs ∧
          SlotsBecome s t q.ref.ctx o (o.slots.set q.slot (.writing d)) o.committing ∧
          Settles t (s.media.set e.loc.chan (((s.media.get e.loc.chan).stage e.loc n q.data).handOver e.loc.zone
            (e.loc.first + (e.loc.count - 1)))) s.audit) ∧
        ∀ m, m = ((s.media.set e.loc.chan ((s.media.get e.loc.chan).stage e.loc n q.data)).withdraw e.loc).deadPages e.loc →
          n + q.data.length = d.length → (sha.update q.data).finish ≠ d.digest →
          Replied s t tag 0x03 .digestMismatch [Fld.u32 d.length, Fld.u8 1] ∧
          (∀ ref, ref ≠ d.ref → t.segs.entry ref = s.segs.entry ref) ∧
          (e.waiters = [] → t.segs = s.segs.del d.ref ∧ q.ref.ctx ∉ t.ingest.ready ∧
            SlotsBecome s t q.ref.ctx o (o.slots.set q.slot .empty) false) ∧
          ({ ctx := q.ref.ctx, gen := q.ref.gen, slot := q.slot } ∉ e.waiters →
            Emptied s t { ctx := q.ref.ctx, gen := q.ref.gen, slot := q.slot } ∧ HandedOver s t m d.ref e e.waiters .digest) ∧
          Settles t (m.handedOver s.settings d.ref e e.waiters) s.audit)

/-- ITEM_COMMIT of a RECEIVING context: INCOMPLETE with the lowest EMPTY slot, the commit at once where every slot is READY and an audit
slot is free, and otherwise COMMIT_PENDING with the context COMMITTING, at the tail of the commit-ready list where every slot is READY
(R38, R40 to R43). The head of the commit-ready list is committed where an audit slot is free, its host is sent COMMITTED, and the next
heads commit in turn until the list is empty or no slot is free; otherwise nothing happens (R40). That the event which frees a slot or
lets a context join makes these commits first, and that DEFERRED_COMMIT is the same event under its own name, is log entry 38;
`ProgramOutcome` states such an event. Each slot of the item turns a claim of its entry into a ref, unless the entry is pinned, and the
ref that is the 16,777,215th pins it (R42 (8), R64, R65, R67). -/
def Obligations.Commits : Prop :=
  (∀ o : OpenCtx, o.allReady = true ↔ ∀ v ∈ o.slots, ∃ d, v = .ready d) ∧
  (∀ m : BitVec 64, popCount m = (List.range 64).countP (fun n => m.getLsbD n)) ∧
  (∀ (t : Segs) (ref : EntryRef), (t.entry ref = none → t.claimToRef ref = t) ∧
    ∀ e, t.entry ref = some e → t.claimToRef ref = t.put ref { e with
      claims := e.claims - 1
      refs := if e.pinned then e.refs else e.refs + 1
      pinned := e.pinned || decide (e.refs + 1 = 16777215) }) ∧
  (∀ (tag : Byte) (r : CtxRef) (s : State) (o : OpenCtx), s.taking = true → s.ingest.named r = some o →
     (o.committing = true → exec (.itemCommit tag (.fields r)) s =
       .next ((s.touch r.ctx o).emit (replyFrame tag 0x04 .badContext []))) ∧
     (∀ n, o.committing = false → o.slots[n]? = some .empty → (∀ k, k < n → o.slots[k]? ≠ some .empty) →
       exec (.itemCommit tag (.fields r)) s = .next ((s.touch r.ctx o).emit (replyFrame tag 0x04 .incomplete [Fld.u16 n]))) ∧
     (o.committing = false → .empty ∉ o.slots →
       ∃ t, exec (.itemCommit tag (.fields r)) s = .next t ∧ KeepsAllBut commitBlocks s t ∧
         (o.allReady = true → s.slotFree = true → ∃ rec l ev, CommittedAs s t r.ctx o rec l ev ∧
           Replied s t tag 0x04 .ok (commitFields s.index.next rec l)) ∧
         (o.allReady = false ∨ s.slotFree = false →
           Replied s t tag 0x04 .commitPending [] ∧ SlotsBecome s t r.ctx o o.slots true ∧ t.index = s.index ∧
           t.segs = s.segs ∧ t.policy = s.policy ∧ t.clock = s.clock ∧
           (o.allReady = true → r.ctx ∉ s.ingest.ready → t.ingest.ready = s.ingest.ready ++ [r.ctx]) ∧
           (o.allReady = false → t.ingest.ready = s.ingest.ready)))) ∧
  (∀ s : State, s.taking = true → s.ingest.ready = [] ∨ s.slotFree = false → exec .deferredCommit s = .next s) ∧
  (∀ (s : State) (c : Nat) (cs : List Nat) (o : OpenCtx), s.taking = true → s.ingest.ready = c :: cs → c ∉ cs →
     (s.ingest.ctx c).body = some o → s.slotFree = true →
     ∃ t mid rec l ev, exec .deferredCommit s = .next t ∧ KeepsAllBut commitBlocks s t ∧ Tells s t ∧
       KeepsAllBut commitBlocks s mid ∧ Tells s mid ∧ CommittedAs s mid c o rec l ev ∧ mid.ingest.ready = cs ∧
       (∀ n, n ≠ c → mid.ingest.ctx n = s.ingest.ctx n) ∧
       mid.link.tx.getLast? = some (reportFrame 0x04 (Fld.ctxRef c (s.ingest.ctx c).gen ++ commitFields s.index.next rec l)) ∧
       reportFrame 0x04 (Fld.ctxRef c (s.ingest.ctx c).gen ++ commitFields s.index.next rec l) ∈ t.link.tx ∧
       (cs = [] ∨ mid.slotFree = false → CommittedAs s t c o rec l ev ∧ t.segs = mid.segs ∧ t.policy = mid.policy ∧
         t.index = mid.index ∧ t.audit.buffer = mid.audit.buffer ∧ t.ingest.ready = cs) ∧
       (cs ≠ [] → mid.slotFree = true → ∃ t', exec .deferredCommit mid = .next t' ∧ t'.segs = t.segs ∧ t'.policy = t.policy ∧
         t'.index = t.index ∧ t'.audit.buffer = t.audit.buffer ∧ t'.ingest.ready = t.ingest.ready))

/-- A request whose reference names no context is refused with BAD_CONTEXT and changes nothing (R24, R28 (1), R30 (1), R38, R44).
ITEM_ABORT and the expiry of a running deadline give the context up, whatever its slots, and so complete: it becomes FREE under its
generation and leaves the commit-ready list. First its WAITING slots leave the waiter lists and its READY slots give back their claims,
the entries left with nothing being freed with their pages dead (`u`); then each SENDING or WRITING slot in slot order has its pages
withdrawn and owner failure applied, with the cause ABORT or TIMEOUT (`v`, by the owner failure that `UploadEnds` states). So the upload
goes to the oldest waiter left where `Media.place` grants a placement on the media with the old pages withdrawn and dead, and the entry
is FREE, every waiter told, exactly where it grants none or nobody is left (R44, R46, R60 to R62, R64, R66). The other contexts stand as
step (3) leaves them, a deadline suspended or restarted as R45 says. An abort is answered OK, with the reports of step (3) behind the
reply; a timeout sends CONTEXT_ENDED behind them. That CONTEXT_TIMEOUT is taken for any running deadline and raises the timers to it is
log entry 7; in which order READY slots give back their claims is not stated (log entry 40). What a reference names is R24's, the
restart that a request on it makes R25's, and which deadlines are suspended R45's. -/
def Obligations.ContextGivenUp : Prop :=
  (∀ (s : State) (r : CtxRef) (o : OpenCtx),
    (s.ingest.named r = some o ↔ r.ctx ≤ 15 ∧ (s.ingest.ctx r.ctx).gen = r.gen ∧ (s.ingest.ctx r.ctx).body = some o) ∧
    (∀ w : SlotRef, s.ctxOf w = s.ingest.named { ctx := w.ctx, gen := w.gen }) ∧
    s.touch r.ctx o = { s with ingest := s.ingest.setOpen r.ctx { o with
      deadline := match o.deadline with | .running _ => .running (s.timer + s.settings.timeout) | .suspended => .suspended } } ∧
    (s.ingest.setOpen r.ctx o).ready = s.ingest.ready ∧
    (∀ n, (s.ingest.setOpen r.ctx o).ctx n =
      if n = r.ctx then { gen := (s.ingest.ctx n).gen, body := some o } else s.ingest.ctx n)) ∧
  (∀ o : OpenCtx, o.suspends = true ↔
    o.committing = false ∧ (∃ d, .waiting d ∈ o.slots) ∧ (∀ v ∈ o.slots, (∃ d, v = .ready d) ∨ ∃ d, v = .waiting d) ∨
      o.committing = true ∧ ∀ d n sha, .sending d n sha ∉ o.slots) ∧
  (∀ (o : OpenCtx) (now timeout : Nat), o.retime now timeout = { o with
    deadline := if o.suspends then .suspended
      else match o.deadline with | .suspended => .running (now + timeout) | .running d => .running d }) ∧
  (∀ (tag : Byte) (r : CtxRef) (s : State), s.taking = true →
    (15 < r.ctx ∨ (s.ingest.ctx r.ctx).gen ≠ r.gen ∨ (s.ingest.ctx r.ctx).body = none) →
    exec (.itemCommit tag (.fields r)) s = .next (s.emit (replyFrame tag 0x04 .badContext [])) ∧
    exec (.itemAbort tag (.fields r)) s = .next (s.emit (replyFrame tag 0x05 .badContext [])) ∧
    (∀ q : SegDeclare, q.ref = r →
      exec (.segDeclare tag (.fields q)) s = .next (s.emit (replyFrame tag 0x02 .badContext []))) ∧
    ∀ q : SegData, q.ref = r → exec (.segData tag (.fields q)) s = .next (s.emit (replyFrame tag 0x03 .badContext []))) ∧
  ∀ (s : State) (c : Nat) (o : OpenCtx) (i : Instr) (tag : Byte) (due : Nat) (cause : EndCause), s.taking = true → c ≤ 15 →
    (s.ingest.ctx c).body = some o →
    (i = .itemAbort tag (.fields { ctx := c, gen := (s.ingest.ctx c).gen }) ∧ cause = .abort ∨
      i = .contextTimeout c ∧ o.deadline = .running due ∧ cause = .timeout) →
    ∃ t, exec i s = .next t ∧ KeepsAllBut (.timer :: uploadBlocks) s t ∧
      t.ingest.ctx c = { gen := (s.ingest.ctx c).gen, body := none } ∧ c ∉ t.ingest.ready ∧
      (cause = .abort → Replied s t tag 0x05 .ok [] ∧ t.timer = s.timer) ∧
      (cause = .timeout → Tells s t ∧ t.timer = max s.timer due) ∧
      ((∀ v ∈ o.slots, v = .empty) → t.segs = s.segs) ∧
      ∃ u v told more, ClaimsGivenUp s u c o ∧ v = u.uploadsFail cause (o.slots.filterMap Slot.uploading) ∧
        ((∀ d, .ready d ∉ o.slots) → u.media = s.media) ∧ t.segs = v.segs ∧ Settles t v.media s.audit ∧
        t.ingest.ready = v.ingest.ready.filter (fun n => n != c) ∧
        (∀ n, n ≠ c → t.ingest.ctx n = { v.ingest.ctx n with
          body := (v.ingest.ctx n).body.map (OpenCtx.retime t.timer s.settings.timeout) }) ∧
        v.link.tx = s.link.tx ++ told ∧
        (cause = .abort → t.link.tx = s.link.tx ++ replyFrame tag 0x05 .ok [] :: (told ++ more)) ∧
        (cause = .timeout → t.link.tx =
          s.link.tx ++ told ++ reportFrame 0x05 (Fld.ctxRef c (s.ingest.ctx c).gen ++ [Fld.u8 0x04]) :: more) ∧
        ∀ ref ready up left, ready = o.slots.countP (Slot.claims ref) →
          up = (o.slots.filterMap Slot.uploading).countP (fun d => decide (d.ref = ref)) →
          (∀ w : SlotRef, left w = !(decide (w.ctx = c ∧ w.gen = (s.ingest.ctx c).gen) &&
            match o.slots[w.slot]? with | some (.waiting d) => decide (d.ref = ref) | _ => false)) →
          (s.segs.entry ref = none → t.segs.entry ref = none) ∧
          ∀ e, s.segs.entry ref = some e →
            (e.stored = true → up = 0 → (∀ d, .waiting d ∈ o.slots → d.ref ≠ ref) →
              t.segs.entry ref = if 1 ≤ ready ∧ e.refs = 0 ∧ e.claims ≤ ready ∧ e.pinned = false then none
                else some { e with claims := e.claims - ready }) ∧
            (e.stored = false → ready = 0 →
              (up = 0 → t.segs.entry ref = some { e with waiters := e.waiters.filter left }) ∧
              (1 ≤ up → e.waiters.filter left = [] → t.segs.entry ref = none) ∧
              ∀ d m ws, o.slots.filterMap Slot.uploading = [d] → d.ref = ref → ws = e.waiters.filter left → (∀ w ∈ ws, w.ctx ≠ c) →
                m = (u.media.withdraw e.loc).deadPages e.loc →
                HandedOver s t m ref e ws cause ∧ Settles t (m.handedOver s.settings ref e ws) s.audit)

/-- The end of an upload. Owner failure: the pages of the placement become dead, and the upload is handed over to the waiters, oldest
first; the first that obtains a placement owns it, SENDING from byte 0, and is told SEGMENT_SEND, the others waiting on; where no
placement is granted each waiter in turn becomes EMPTY, its commit cancelled, and is told SEGMENT_FAILED with NO_SPACE and the cause of
the failed upload, and the entry becomes FREE (R36, R37, R60, R61). Owner success: the entry becomes STORED with one claim for the owner
and one for each waiter, they become READY and are told SEGMENT_READY, the owner first and then the waiters in order (R34, R59). -/
def Obligations.UploadEnds : Prop :=
  (∀ (s : State) (ref : EntryRef) (e : SegEntry) (cause : EndCause) (m : Media), s.segs.entry ref = some e →
    m = s.media.deadPages e.loc →
    (e.waiters = [] → s.ownerFailure ref cause = { s with segs := s.segs.del ref, media := m }) ∧
    (∀ w rest m' l o d, e.waiters = w :: rest → m.place s.settings e.loc.count ref = some (m', l) → s.ctxOf w = some o →
      (o.slots[w.slot]?).bind Slot.decl = some d →
      s.ownerFailure ref cause = { s with
        segs := s.segs.put ref { e with loc := l, owner := some w, waiters := rest }
        media := m'
        ingest := s.ingest.setOpen w.ctx { o with slots := o.slots.set w.slot (.sending d 0 Sha.start) }
        link := { s.link with tx := s.link.tx ++ [sendReport w d.length] } }) ∧
    (m.place s.settings e.loc.count ref = none → (∀ w ∈ e.waiters, (s.ctxOf w).isSome = true) →
      (s.ownerFailure ref cause).segs = s.segs.del ref ∧ (s.ownerFailure ref cause).media = m ∧
      (s.ownerFailure ref cause).link.tx = s.link.tx ++ e.waiters.map (fun w => failedReport w 5 cause.code) ∧
      (∀ w ∈ e.waiters, Emptied s (s.ownerFailure ref cause) w) ∧
      ∀ c, (∀ w ∈ e.waiters, w.ctx ≠ c) → (s.ownerFailure ref cause).ingest.ctx c = s.ingest.ctx c)) ∧
  ∀ (s : State) (ref : EntryRef) (e : SegEntry) (w : SlotRef), s.segs.entry ref = some e → e.owner = some w →
    (∀ x ∈ w :: e.waiters, ∃ d, (s.slotAt x).bind Slot.decl = some d) →
    (s.ownerSuccess ref).segs =
        s.segs.put ref { e with stored := true, claims := 1 + e.waiters.length, owner := none, waiters := [] } ∧
      (s.ownerSuccess ref).media = s.media ∧
      (s.ownerSuccess ref).link.tx = s.link.tx ++ (w :: e.waiters).map readyReport ∧
      (∀ x ∈ w :: e.waiters, ∀ d, (s.slotAt x).bind Slot.decl = some d → (s.ownerSuccess ref).slotAt x = some (.ready d)) ∧
      (∀ x, x ∉ w :: e.waiters → (s.ownerSuccess ref).slotAt x = s.slotAt x) ∧
      (∃ joined, (s.ownerSuccess ref).ingest.ready = s.ingest.ready ++ joined ∧ ∀ c ∈ joined, ∃ x ∈ w :: e.waiters, x.ctx = c) ∧
      ∀ x ∈ w :: e.waiters, ∀ o, (s.ownerSuccess ref).ctxOf x = some o → o.committing = true → o.allReady = true →
        x.ctx ∈ (s.ownerSuccess ref).ingest.ready

/-- ITEM_READ and ITEM_SEGMENTS answer as R99 and R100 say and change nothing: NOT_FOUND for a number not assigned, the record or
the tombstone, GONE, BAD_SLOT and BAD_FIELD in order, and the window of the segment list with each location. Field widths that
section 10.6 does not give are log entry 13's. -/
def Obligations.ItemReads : Prop :=
  (∀ (d : Dispo) (e : QueueEntry), e ∈ d.queue → (d.queue.map (·.item)).Nodup → d.queuedDay e.item = some e.day) ∧
  (∀ (t : Segs) (n : Nat) (g : ItemSeg) (e : SegEntry), t.entry g.ref = some e → t.slotFields n g =
    [Fld.u16 n, Fld.digest g.digest, Fld.u32 g.length] ++ Fld.entryRef g.ref ++
      [Fld.u8 e.loc.chan.val, Fld.u16 e.loc.zone, Fld.u16 e.loc.first, Fld.u16 e.loc.count]) ∧
  ∀ (tag : Byte) (n first count : Nat) (s : State), s.taking = true →
    (n = 0 ∨ s.index.next ≤ n →
      exec (.itemRead tag (.fields n)) s = .next (s.emit (replyFrame tag 0x06 .notFound [])) ∧
      exec (.itemSegments tag (.fields { item := n, first, count })) s = .next (s.emit (replyFrame tag 0x07 .notFound []))) ∧
    ∀ r, n ≠ 0 → n < s.index.next → s.index.item n = some r →
      (∀ sec, r.body = .disposed sec →
        exec (.itemSegments tag (.fields { item := n, first, count })) s = .next (s.emit (replyFrame tag 0x07 .gone [])) ∧
        exec (.itemRead tag (.fields n)) s = .next (s.emit (replyFrame tag 0x06 .ok
          ([Fld.u8 4, Fld.u24 n, Fld.u8 r.domain, Fld.u64 r.commitSecond] ++ Fld.classSet r.classes ++ Fld.expiry r.expiry ++
            [Fld.digest r.fingerprint, Fld.remarks r.remarks, Fld.u64 sec])))) ∧
      ∀ l, r.body = .live l →
        exec (.itemRead tag (.fields n)) s = .next (s.emit (replyFrame tag 0x06 .ok
          ([Fld.liveState l.state, Fld.u8 r.domain, Fld.u64 r.commitSecond, Fld.u32 (r.commitSecond / 86400),
              Fld.u32 l.sentDay, Fld.u32 l.tags.toNat, Fld.u8 l.flags.toNat, Fld.remarks r.remarks] ++
            Fld.classSet r.classes ++ Fld.expiry r.expiry ++ [Fld.u64 l.holdMask.toNat, Fld.u8 l.holdCount] ++
            Fld.opt 8 (l.event.map (·.toNat)) ++ [Fld.digest r.fingerprint] ++
            Fld.list (l.parties.map (fun k => Fld.u64 k.toNat)) ++ [Fld.u32 l.segs.length] ++
            (if l.state = .eligible then [Fld.u32 ((s.dispo.queuedDay n).getD 0)] else [])))) ∧
        exec (.itemSegments tag (.fields { item := n, first, count })) s = .next (s.emit
          (if l.segs.length ≤ first then replyFrame tag 0x07 .badSlot []
            else if count = 0 ∨ 64 < count then replyFrame tag 0x07 .badField []
            else replyFrame tag 0x07 .ok (Fld.u32 l.segs.length ::
              Fld.rows (((l.segs.zipIdx.drop first).take count).map (fun g => s.segs.slotFields g.2 g.1)))))

/-- SEG_READ and SEG_VERIFY answer the first refusal of R69 or R71 at once: NOT_FOUND, GONE for a tombstone, BAD_SLOT, and what follows.
An accepted one is told nothing: it queues the reads of its pages, a SEG_VERIFY taking the lowest free verify place and reading its first
page, or waiting for a place where the READ queue is full. The verify places are 0 to 3, and one is free where no verify in flight has it;
where each verify has a place of its own, as an accepted one keeps it, none is free exactly where 4 are in flight (R71). The number that
names a SEG_READ in flight and the list of waiting verifies are log entry 25's. -/
def Obligations.SegmentReadsStart : Prop :=
  (∀ c : Channel, c.readRoom = 32 - c.readQ.length) ∧
  (∀ g : Segs, (g.freePlace = none ↔ ∀ p, p < 4 → ∃ v ∈ g.verifies, v.place = p) ∧
    (∀ p, g.freePlace = some p ↔ p < 4 ∧ (∀ v ∈ g.verifies, v.place ≠ p) ∧ ∀ k, k < p → ∃ v ∈ g.verifies, v.place = k) ∧
    ((∀ v ∈ g.verifies, v.place < 4) → (g.verifies.map (·.place)).Nodup → (g.freePlace = none ↔ g.verifies.length = 4))) ∧
  ∀ (tag : Byte) (item slot offset count : Nat) (s : State), s.taking = true →
    (item = 0 ∨ s.index.next ≤ item →
      exec (.segRead tag (.fields { item, slot, offset, count })) s = .next (s.emit (replyFrame tag 0x08 .notFound [])) ∧
      exec (.segVerify tag (.fields { item, slot })) s = .next (s.emit (replyFrame tag 0x09 .notFound []))) ∧
    (∀ r sec, item ≠ 0 → item < s.index.next → s.index.item item = some r → r.body = .disposed sec →
      exec (.segRead tag (.fields { item, slot, offset, count })) s = .next (s.emit (replyFrame tag 0x08 .gone [])) ∧
      exec (.segVerify tag (.fields { item, slot })) s = .next (s.emit (replyFrame tag 0x09 .gone []))) ∧
    (∀ r l, item ≠ 0 → item < s.index.next → s.index.item item = some r → r.body = .live l → l.segs.length ≤ slot →
      exec (.segRead tag (.fields { item, slot, offset, count })) s = .next (s.emit (replyFrame tag 0x08 .badSlot [])) ∧
      exec (.segVerify tag (.fields { item, slot })) s = .next (s.emit (replyFrame tag 0x09 .badSlot []))) ∧
    ∀ r l g e, item ≠ 0 → item < s.index.next → s.index.item item = some r → r.body = .live l → l.segs[slot]? = some g →
      s.segs.entry g.ref = some e →
      (count = 0 ∨ 4096 < count ∨ g.length < offset + count →
        exec (.segRead tag (.fields { item, slot, offset, count })) s = .next (s.emit (replyFrame tag 0x08 .badField []))) ∧
      ((s.media.get e.loc.chan).state = .offline →
        exec (.segVerify tag (.fields { item, slot })) s = .next (s.emit (replyFrame tag 0x09 .offline [])) ∧
        (1 ≤ count → count ≤ 4096 → offset + count ≤ g.length →
          exec (.segRead tag (.fields { item, slot, offset, count })) s = .next (s.emit (replyFrame tag 0x08 .offline [])))) ∧
      ((s.media.get e.loc.chan).state ≠ .offline →
        (1 ≤ count → count ≤ 4096 → offset + count ≤ g.length →
          ∀ pages, pages = (offset + count - 1) / 16384 - offset / 16384 + 1 →
          ((s.media.get e.loc.chan).readRoom < pages →
            exec (.segRead tag (.fields { item, slot, offset, count })) s = .next (s.emit (replyFrame tag 0x08 .busy []))) ∧
          (pages ≤ (s.media.get e.loc.chan).readRoom →
            ∃ t, exec (.segRead tag (.fields { item, slot, offset, count })) s = .next t ∧
              KeepsAllBut [.segs, .media, .audit, .link] s t ∧ Tells s t ∧
              t.segs = { s.segs with
                nextRead := s.segs.nextRead + 1
                reads := s.segs.reads ++ [{ id := s.segs.nextRead, tag, item, skip := offset % 16384, count
                                            parts := List.replicate pages .pending }] } ∧
              Settles t (s.media.set e.loc.chan ((s.media.get e.loc.chan).pushParts e.loc.zone
                (e.loc.first + offset / 16384) s.segs.nextRead pages)) s.audit)) ∧
        (s.segs.freePlace = none →
          exec (.segVerify tag (.fields { item, slot })) s = .next (s.emit (replyFrame tag 0x09 .busy []))) ∧
        ∀ p v, s.segs.freePlace = some p →
          v = { place := p, tag, item, digest := g.digest, length := g.length, loc := e.loc, next := 0, sha := Sha.start
                waiting := decide ((s.media.get e.loc.chan).readRoom = 0) : Verify } →
          ∃ t, exec (.segVerify tag (.fields { item, slot })) s = .next t ∧ KeepsAllBut [.segs, .media, .audit, .link] s t ∧
            Tells s t ∧ t.segs = { s.segs with verifies := s.segs.verifies ++ [v], verifyWait := t.segs.verifyWait } ∧
            (0 < (s.media.get e.loc.chan).readRoom →
              t.segs.verifyWait = s.segs.verifyWait.filter (fun n => n != p) ∧
              Settles t (s.media.set e.loc.chan ((s.media.get e.loc.chan).pushRead
                { zone := e.loc.zone, page := e.loc.first, who := .verify p })) s.audit) ∧
            ((s.media.get e.loc.chan).readRoom = 0 →
              t.segs.verifyWait = s.segs.verifyWait ++ [p] ∧ Settles t s.media s.audit))

/-! ### Chapter 4 -/

/-- CLASS_SET: the first refusal of R75 that applies; and an accepted one writes the definition, keeps LOCKED a class that is
LOCKED, makes any other DEFINED, appends CLASS_CHANGED and, where the class is in use, presents a CLASS sweep (R75, R77). A new
definition lengthens an old one exactly where the six conditions of R76 hold. CLASS_CLEAR: the first refusal of R78 that applies; and
an accepted one makes the class UNDEFINED and appends CLASS_CLEARED. Field widths that section 10.6 does not give are log entry
13's. -/
def Obligations.ClassRequests : Prop :=
  (∀ (tag : Byte) (q : ClassSet) (s : State) (old : ClassRec) (st : Status), s.taking = true → old = s.policy.cls q.cls →
     st = (if 63 < q.cls ∨ 150 < q.defn.py ∨ 11 < q.defn.pm ∨ 999 < q.defn.pd ∨ 3650 < q.defn.fd then .badField
       else if old.state.refuses q.defn then .locked
       else if old.state = .defined q.defn ∨ old.state = .locked q.defn then .unchanged
       else if 0 < old.inUse ∧ .cls q.cls ∉ s.index.waiting ∧ 16 ≤ s.index.sweeps.length then .sweepFull
       else if s.slotFree = false then .auditFull else .ok) →
     (old.state.refuses q.defn = true ↔ ∃ d, old.state = .locked d ∧ lengthens d q.defn = false) ∧
     (st ≠ .ok → exec (.classSet tag (.fields q)) s = .next (s.emit (replyFrame tag 0x0D st []))) ∧
     (st = .ok → ∃ t new, exec (.classSet tag (.fields q)) s = .next t ∧
       KeepsAllBut (.policy :: .index :: recordBlocks) s t ∧
       new = (match old.state with | .locked _ => ClassState.locked q.defn | _ => .defined q.defn) ∧
       t.policy.cls q.cls = { state := new, inUse := old.inUse } ∧
       (∀ c, c ≠ q.cls → t.policy.cls c = s.policy.cls c) ∧ t.policy.domains = s.policy.domains ∧
       t.policy.entries = s.policy.entries ∧ t.policy.flags = s.policy.flags ∧ t.clock.counter = s.clock.counter ∧
       Accepted s t tag 0x0D .ok (Fld.classStateDef new ++ [Fld.u32 old.inUse]) .classChanged
         ([Fld.u8 q.cls] ++ Fld.classStateDef old.state ++ Fld.classDef q.defn ++
           [Fld.u8 (if old.inUse = 0 then 2 else if .cls q.cls ∈ s.index.waiting then 1 else 0)]) ∧
       t.index = (if old.inUse = 0 then s.index.startSweep else s.index.enqueue [.cls q.cls]))) ∧
  (∀ old new : ClassDef, lengthens old new = true ↔
     new.anchor = old.anchor ∧ (old.permanent = true → new.permanent = true) ∧ old.py ≤ new.py ∧ old.pm ≤ new.pm ∧
       old.pd ≤ new.pd ∧ old.fd ≤ new.fd) ∧
  ∀ (tag : Byte) (c : Nat) (s : State) (old : ClassRec), s.taking = true → old = s.policy.cls c →
    (63 < c → exec (.classClear tag (.fields c)) s = .next (s.emit (replyFrame tag 0x0E .badField []))) ∧
    (c ≤ 63 → old.state = .undefined →
      exec (.classClear tag (.fields c)) s = .next (s.emit (replyFrame tag 0x0E .unchanged []))) ∧
    (∀ d, c ≤ 63 → old.state = .locked d →
      exec (.classClear tag (.fields c)) s = .next (s.emit (replyFrame tag 0x0E .locked []))) ∧
    (∀ d used, c ≤ 63 → old.state = .defined d →
      (used ↔ 0 < old.inUse ∨ ∃ n, n ≤ 15 ∧ (s.policy.domain n).active = true ∧ (s.policy.domain n).fallback = some c) →
      (used → exec (.classClear tag (.fields c)) s = .next (s.emit (replyFrame tag 0x0E .inUse []))) ∧
      (¬used → s.slotFree = false →
        exec (.classClear tag (.fields c)) s = .next (s.emit (replyFrame tag 0x0E .auditFull []))) ∧
      (¬used → s.slotFree = true → ∃ t, exec (.classClear tag (.fields c)) s = .next t ∧
        KeepsAllBut (.policy :: recordBlocks) s t ∧ t.policy.cls c = { state := .undefined, inUse := old.inUse } ∧
        (∀ k, k ≠ c → t.policy.cls k = s.policy.cls k) ∧ t.policy.domains = s.policy.domains ∧
        t.policy.entries = s.policy.entries ∧ t.policy.flags = s.policy.flags ∧ t.clock.counter = s.clock.counter ∧
        Accepted s t tag 0x0E .ok [] .classCleared (Fld.u8 c :: Fld.classDef d)))

/-- DOMAIN_SET: the first refusal of R83 that applies; and an accepted one writes the new record, appends DOMAIN_CHANGED with the
old and the new record and answers OK with the new (R83, R84). Field widths that section 10.6 does not give are log entry 13's. -/
def Obligations.DomainSetOutcome : Prop :=
  (∀ (g : Ingest) (d : Nat), g.openIn d = (List.range 16).countP (fun n => decide (∃ o, (g.ctx n).body = some o ∧ o.env.domain = d))) ∧
  ∀ (tag : Byte) (q : DomainSet) (s : State) (old new : DomainRec) (st : Status), s.taking = true →
    old = s.policy.domain q.domain →
    new = { active := q.active, group := q.group, fallback := if q.active then some q.fallback else none, start := q.start
            backdate := q.backdate } →
    st = (if 15 < q.domain ∨ 15 < q.group ∨ (q.active = true ∧ 63 < q.fallback) ∨ 511 < q.start ∨ 3650 < q.backdate then .badField
      else if q.active = true ∧ (s.policy.cls q.fallback).state = .undefined then .badField
      else if s.compliant = true ∧ (old.backdate < q.backdate ∨ old.active = true ∧ q.active = false) then .mode
      else if q.active = false ∧ 0 < s.ingest.openIn q.domain then .inUse
      else if new = old then .unchanged
      else if s.slotFree = false then .auditFull else .ok) →
    (st ≠ .ok → exec (.domainSet tag (.fields q)) s = .next (s.emit (replyFrame tag 0x10 st []))) ∧
    (st = .ok → ∃ t, exec (.domainSet tag (.fields q)) s = .next t ∧ KeepsAllBut (.policy :: recordBlocks) s t ∧
      t.policy.domain q.domain = new ∧ (∀ d, d ≠ q.domain → t.policy.domain d = s.policy.domain d) ∧
      t.policy.classes = s.policy.classes ∧ t.policy.entries = s.policy.entries ∧ t.policy.flags = s.policy.flags ∧
      t.clock.counter = s.clock.counter ∧
      Accepted s t tag 0x10 .ok (Fld.domainRec new) .domainChanged
        (Fld.u8 q.domain :: (Fld.domainRec old ++ Fld.domainRec new)))

/-- POLICY_WRITE writes one entry, in range and other than the present one, and no other entry, and appends POLICY_CHANGED (R86). An
entry is in range where it is UNUSED, or where the operand of its test lies in the range of TABLE 4-2 and that of its action in the
range of TABLE 4-3; the masks of FLAGS are of 8 bits and always are. ARCHIVE_FLAGS: each flag becomes set, clear, the opposite of its
present value or stays, as the masks name it; UNCHANGED where every flag keeps its value, AUDIT_FULL where no slot is free, and
otherwise OK with one FLAGS_CHANGED record (R85). Field widths that section 10.6 does not give are log entry 13's; that flag f is the
bit of value 2^f of a mask is log entry 39. -/
def Obligations.PolicyWriteAndArchiveFlags : Prop :=
  (inRangeEntry .unused = true ∧ ∀ t w a, inRangeEntry (.used t w a) = true ↔
     (∀ d, t = .domain d → d ≤ 15) ∧ (∀ n, t = .tag n → n ≤ 31) ∧ (∀ n, t = .partiesAtLeast n → n ≤ 128) ∧
     (∀ n, t = .segmentsAtLeast n → n ≤ 256) ∧ (∀ k, t = .sizeAtLeast k → k ≤ 4194304) ∧ (∀ f, t = .itemFlag f → f ≤ 7) ∧
     (∀ f, t = .archiveFlag f → f ≤ 7) ∧ (∀ c, a = .cls c → c ≤ 63) ∧ (∀ e, a = .goto e ∨ a = .call e → e ≤ 511)) ∧
  (∀ (tag : Byte) (q : PolicyWrite) (s : State), s.taking = true →
     (511 < q.entry ∨ inRangeEntry q.content = false →
       exec (.policyWrite tag (.fields q)) s = .next (s.emit (replyFrame tag 0x12 .badField []))) ∧
     (q.entry ≤ 511 → inRangeEntry q.content = true → q.content = s.policy.entry q.entry →
       exec (.policyWrite tag (.fields q)) s = .next (s.emit (replyFrame tag 0x12 .unchanged []))) ∧
     (q.entry ≤ 511 → inRangeEntry q.content = true → q.content ≠ s.policy.entry q.entry → s.slotFree = false →
       exec (.policyWrite tag (.fields q)) s = .next (s.emit (replyFrame tag 0x12 .auditFull []))) ∧
     (q.entry ≤ 511 → inRangeEntry q.content = true → q.content ≠ s.policy.entry q.entry → s.slotFree = true →
       ∃ t, exec (.policyWrite tag (.fields q)) s = .next t ∧ KeepsAllBut (.policy :: recordBlocks) s t ∧
         t.policy.entry q.entry = q.content ∧ (∀ e, e ≠ q.entry → t.policy.entry e = s.policy.entry e) ∧
         t.policy.classes = s.policy.classes ∧ t.policy.domains = s.policy.domains ∧ t.policy.flags = s.policy.flags ∧
         t.clock.counter = s.clock.counter ∧
         Accepted s t tag 0x12 .ok [] .policyChanged
           (Fld.u16 q.entry :: (Fld.policyEntry (s.policy.entry q.entry) ++ Fld.policyEntry q.content)))) ∧
  (∀ (tag : Byte) (q : FlagMasks) (s : State) (new : BitVec 8), s.taking = true →
     (∀ n, n < 8 → new.getLsbD n =
       if q.set.getLsbD n = true ∧ q.clear.getLsbD n = false then true
       else if q.set.getLsbD n = false ∧ q.clear.getLsbD n = true then false
       else if q.set.getLsbD n = true ∧ q.clear.getLsbD n = true then !s.policy.flags.getLsbD n
       else s.policy.flags.getLsbD n) →
     (new = s.policy.flags → exec (.archiveFlags tag (.fields q)) s =
       .next (s.emit (replyFrame tag 0x14 .unchanged [Fld.u8 new.toNat]))) ∧
     (new ≠ s.policy.flags → s.slotFree = false →
       exec (.archiveFlags tag (.fields q)) s = .next (s.emit (replyFrame tag 0x14 .auditFull []))) ∧
     (new ≠ s.policy.flags → s.slotFree = true → ∃ t, exec (.archiveFlags tag (.fields q)) s = .next t ∧
       KeepsAllBut (.policy :: recordBlocks) s t ∧ t.policy = { s.policy with flags := new } ∧
       t.clock.counter = s.clock.counter ∧
       Accepted s t tag 0x14 .ok [Fld.u8 new.toNat] .flagsChanged [Fld.u8 s.policy.flags.toNat, Fld.u8 new.toNat]))

/-- CLASS_READ, DOMAIN_READ and POLICY_READ refuse a number past their table with BAD_FIELD and otherwise answer OK with the record; they
change nothing else (R79, R84, R86). MATTER_READ, CUSTODIAN_FIND and CUSTODIAN_READ answer as R134 and R125 say and change nothing else.
Field widths that section 10.6 does not give (the dedup group's among them), a FREE matter's one byte, the one yes or no byte for the head
of the sweep queue, and the one presence byte before key and mask of a position are log entry 13's; that domain d is the bit of value 2^d
of a domain mask is log entry 39. -/
def Obligations.ConfigurationReads : Prop :=
  (∀ (tag : Byte) (n : Nat) (s : State), s.taking = true →
     exec (.classRead tag (.fields n)) s = .next (s.emit
       (if 63 < n then replyFrame tag 0x0F .badField [] else replyFrame tag 0x0F .ok
         (Fld.classStateDef (s.policy.cls n).state ++ [Fld.u32 (s.policy.cls n).inUse, Fld.u16 (maskOf16
           ((List.range 16).filter (fun d => (s.policy.domain d).active && decide ((s.policy.domain d).fallback = some n))))]))) ∧
     exec (.domainRead tag (.fields n)) s = .next (s.emit
       (if 15 < n then replyFrame tag 0x11 .badField [] else replyFrame tag 0x11 .ok
         (Fld.domainRec (s.policy.domain n) ++ [Fld.u32 (s.ingest.openIn n)]))) ∧
     exec (.policyRead tag (.fields n)) s = .next (s.emit
       (if 511 < n then replyFrame tag 0x13 .badField [] else replyFrame tag 0x13 .ok (Fld.policyEntry (s.policy.entry n))))) ∧
  (∀ (tag : Byte) (n : Nat) (k : Key) (s : State), s.taking = true →
     exec (.matterRead tag (.fields n)) s = .next (s.emit
       (if 63 < n then replyFrame tag 0x1B .badField [] else replyFrame tag 0x1B .ok
         (Fld.matter (s.hold.matter n) ++
           [Fld.u32 (s.index.sweeps.countP (fun r => decide (r = .hold n))),
             Fld.yes (decide (s.index.sweeps.head? = some (.hold n))),
             Fld.u32 (s.hold.custodians.countP (fun e => e.2.mask.getLsbD n))]))) ∧
     (s.hold.find k = none → exec (.custodianFind tag (.fields k)) s = .next (s.emit (replyFrame tag 0x1D .notFound []))) ∧
     (∀ p m, s.hold.find k = some (p, m) → exec (.custodianFind tag (.fields k)) s =
       .next (s.emit (replyFrame tag 0x1D .ok [Fld.u32 p, Fld.u64 m.toNat]))) ∧
     (4095 < n → exec (.custodianRead tag (.fields n)) s = .next (s.emit (replyFrame tag 0x1E .badField []))) ∧
     (n ≤ 4095 → Table.find s.hold.custodians n = none → exec (.custodianRead tag (.fields n)) s =
       .next (s.emit (replyFrame tag 0x1E .ok
         [Fld.yes false, Fld.u64 0, Fld.u64 0, Fld.u32 s.hold.custodians.length]))) ∧
     ∀ e, n ≤ 4095 → Table.find s.hold.custodians n = some e → exec (.custodianRead tag (.fields n)) s =
       .next (s.emit (replyFrame tag 0x1E .ok
         [Fld.yes true, Fld.u64 e.key.toNat, Fld.u64 e.mask.toNat, Fld.u32 s.hold.custodians.length])))

/-- A policy evaluation: its class set has at most four classes, no class twice, and is not empty where the domain has a fallback class
(R89, R91). The ten tests read the item as TABLE 4-2 says (R87); an entry's action is taken where the result is its sense, and one whose
test is not met is passed over (R88). GOTO goes to the entry it names (R90). CLASS adds a class once, beyond four it adds the remark
CLASS_LIMIT, and one that names an UNDEFINED class faults; FLAGS sets, clears and turns the item's flags; CALL goes to an entry and RETURN
back behind the CALL, a fifth CALL and a RETURN with none left fault; END and the end past entry 511 end it without a fault; an UNUSED
entry and the 257th visit fault, whatever the entry holds, while an evaluation that ends at its 256th visit, or past entry 511 after it,
does not; a fault keeps the classes and the flags assigned before it and adds the fallback class by the CLASS rule, with four others held
only the remark (R88 to R91). -/
def Obligations.PolicyEvaluation : Prop :=
  ∀ (p : Policy) (d : DomainRec) (x : EvalItem),
    (p.evaluate d x).1.classes.length ≤ 4 ∧ (p.evaluate d x).1.classes.Nodup ∧
    (∀ c, d.fallback = some c → (p.evaluate d x).1.classes ≠ []) ∧
    (∀ (flags : BitVec 8) (n : Nat),
      (testHolds .always x flags = true) ∧ (testHolds (.domain n) x flags = true ↔ x.env.domain = n) ∧
      (testHolds (.tag n) x flags = true ↔ x.env.tags.getLsbD n = true) ∧
      (testHolds (.partiesAtLeast n) x flags = true ↔ n ≤ x.env.parties.length) ∧
      (testHolds (.segmentsAtLeast n) x flags = true ↔ n ≤ x.env.segCount) ∧
      (testHolds (.sizeAtLeast n) x flags = true ↔ n * 1024 ≤ x.bytes) ∧
      (testHolds .hasEventKey x flags = true ↔ x.env.event ≠ none) ∧
      (testHolds (.itemFlag n) x flags = true ↔ flags.getLsbD n = true) ∧
      (testHolds (.archiveFlag n) x flags = true ↔ x.archive.getLsbD n = true) ∧
      (testHolds .anyCustodian x flags = true ↔ x.custodian = true)) ∧
    ∀ c, d.fallback = some c → d.start < 512 →
      (p.entry d.start = .unused →
        p.evaluate d x = ({ classes := [c], flags := 0, stack := [], limit := false }, true)) ∧
      (∀ k, d.start < 511 → p.entry d.start = .used .always true (.cls k) → (p.cls k).state ≠ .undefined →
        p.entry (d.start + 1) = .used .always true .stop →
        p.evaluate d x = ({ classes := [k], flags := 0, stack := [], limit := false }, false)) ∧
      (∀ k, p.entry d.start = .used .always true (.cls k) → (p.cls k).state = .undefined →
        p.evaluate d x = ({ classes := [c], flags := 0, stack := [], limit := false }, true)) ∧
      (p.entry d.start = .used .always true (.goto d.start) →
        p.evaluate d x = ({ classes := [c], flags := 0, stack := [], limit := false }, true)) ∧
      (∀ t sense k, d.start < 511 → p.entry d.start = .used t sense .stop →
        p.entry (d.start + 1) = .used .always true (.cls k) → (p.cls k).state ≠ .undefined → d.start + 2 = 512 →
        p.evaluate d x = ({ classes := if testHolds t x 0 = sense then [c] else [k], flags := 0, stack := [], limit := false },
          false)) ∧
      (∀ k, d.start = 511 → p.entry 511 = .used .always true (.cls k) → (p.cls k).state ≠ .undefined →
        p.evaluate d x = ({ classes := [k], flags := 0, stack := [], limit := false }, false)) ∧
      (∀ ks : List Nat, ks.length = 5 → ks.Nodup → (∀ k ∈ ks, (p.cls k).state ≠ .undefined) → d.start ≤ 506 →
        (∀ n k, ks[n]? = some k → p.entry (d.start + n) = .used .always true (.cls k)) →
        p.entry (d.start + 5) = .used .always true .stop →
        p.evaluate d x = ({ classes := ks.take 4, flags := 0, stack := [], limit := true }, false)) ∧
      (∀ s1 c1 s2 c2 new, d.start ≤ 509 → p.entry d.start = .used .always true (.flags s1 c1) →
        p.entry (d.start + 1) = .used .always true (.flags s2 c2) → p.entry (d.start + 2) = .used .always true .stop →
        (∀ n, n < 8 → new.getLsbD n =
          if s2.getLsbD n = true ∧ c2.getLsbD n = false then true
          else if s2.getLsbD n = false ∧ c2.getLsbD n = true then false
          else if s2.getLsbD n = true ∧ c2.getLsbD n = true then !s1.getLsbD n
          else s1.getLsbD n) →
        p.evaluate d x = ({ classes := [c], flags := new, stack := [], limit := false }, false)) ∧
      (∀ e k, d.start < 511 → e < 511 → p.entry d.start = .used .always true (.call e) →
        p.entry e = .used .always true (.cls k) → (p.cls k).state ≠ .undefined →
        p.entry (e + 1) = .used .always true .ret → p.entry (d.start + 1) = .used .always true .stop →
        p.evaluate d x = ({ classes := [k], flags := 0, stack := [], limit := false }, false)) ∧
      (∀ e k, e < 511 → p.entry d.start = .used .always true (.goto e) → p.entry e = .used .always true (.cls k) →
        (p.cls k).state ≠ .undefined → p.entry (e + 1) = .used .always true .stop →
        p.evaluate d x = ({ classes := [k], flags := 0, stack := [], limit := false }, false)) ∧
      (∀ k, d.start < 511 → p.entry d.start = .used .always true (.cls k) → (p.cls k).state ≠ .undefined →
        p.entry (d.start + 1) = .unused →
        p.evaluate d x = ({ classes := if k = c then [k] else [k, c], flags := 0, stack := [], limit := false }, true)) ∧
      (∀ ks : List Nat, ks.length = 4 → ks.Nodup → (∀ k ∈ ks, (p.cls k).state ≠ .undefined) → d.start ≤ 507 →
        (∀ n k, ks[n]? = some k → p.entry (d.start + n) = .used .always true (.cls k)) → p.entry (d.start + 4) = .unused →
        p.evaluate d x = ({ classes := ks, flags := 0, stack := [], limit := decide (c ∉ ks) }, true)) ∧
      (∀ s1 c1, d.start < 511 → p.entry d.start = .used .always true (.flags s1 c1) → p.entry (d.start + 1) = .unused →
        p.evaluate d x = ({ classes := [c], flags := s1, stack := [], limit := false }, true)) ∧
      (∀ s1 c1 n sense k, d.start ≤ 509 → p.entry d.start = .used .always true (.flags s1 c1) →
        p.entry (d.start + 1) = .used (.itemFlag n) sense (.cls k) → (p.cls k).state ≠ .undefined →
        p.entry (d.start + 2) = .used .always true .stop → p.evaluate d x =
          ({ classes := if s1.getLsbD n = sense then [k] else [c], flags := s1, stack := [], limit := false }, false)) ∧
      (p.entry d.start = .used .always true (.call d.start) →
        p.evaluate d x = ({ classes := [c], flags := 0, stack := List.replicate 4 (d.start + 1), limit := false }, true)) ∧
      (p.entry d.start = .used .always true .ret →
        p.evaluate d x = ({ classes := [c], flags := 0, stack := [], limit := false }, true)) ∧
      (d.start ≤ 256 → (∀ n, n < 255 → ∃ a, p.entry (d.start + n) = .used .always false a) →
        p.entry (d.start + 255) = .used .always true .stop →
        p.evaluate d x = ({ classes := [c], flags := 0, stack := [], limit := false }, false)) ∧
      ((∀ n, n < 256 → ∃ a, p.entry (d.start + n) = .used .always false a) →
        p.evaluate d x = ({ classes := [c], flags := 0, stack := [], limit := false }, decide (d.start < 256)))

/-! ### Chapter 5 -/

/-- EVENT_POST: the first outcome of R106 that applies, with the posted day clamped to today; and an accepted one makes the key POSTED
with the posted day, keeps its item list, appends EVENT_POSTED and presents an EVENT sweep where the list is not empty (R106, R107).
Requests presented together are admitted together where the places they need fit; one that a waiting request equals merges with it, the
others join the tail (R111). At an append to an empty queue, or wherever no sweep runs, the head starts, an EVENT sweep with the length of
its key's list as limit from position 0, another with the last item number as limit from item 1 (R112). Field widths that section 10.6
does not give, and the two presence bytes of the key's state and day before the request, are log entry 13's. -/
def Obligations.EventPostOutcome : Prop :=
  (∀ (x y : Index) (rs new : List SweepReq), new = rs.filter (fun r => decide (r ∉ x.waiting)) → y = x.enqueue rs →
    x.waiting = (if x.run = none then x.sweeps else x.sweeps.drop 1) ∧
    (x.admits rs = true ↔ new = [] ∨ x.sweeps.length + new.length ≤ 16) ∧
    y.sweeps = x.sweeps ++ new ∧ y.items = x.items ∧ y.next = x.next ∧ y.calendar = x.calendar ∧ y.events = x.events ∧
    (x.run ≠ none → y.run = x.run) ∧ (x.run = none → y.sweeps = [] → y.run = none) ∧
    ∀ r more, x.run = none → y.sweeps = r :: more →
      (∀ k, r = .event k →
        y.run = some { limit := ((x.event k).map (fun e => e.items.length)).getD 0, cursor := 0, changed := 0 }) ∧
      ((∀ k, r ≠ .event k) → y.run = some { limit := x.next - 1, cursor := 1, changed := 0 })) ∧
  ∀ (tag : Byte) (q : EventPost) (s : State) (day : Nat), s.taking = true → day = min q.day (s.clock.counter / 86400) →
    (s.index.event q.key = none → 65536 ≤ s.index.events.length →
      exec (.eventPost tag (.fields q)) s = .next (s.emit (replyFrame tag 0x15 .eventTableFull []))) ∧
    (∀ e stored, s.index.event q.key = some e → e.posted = some stored → day ≤ stored →
      exec (.eventPost tag (.fields q)) s =
        .next (s.emit (replyFrame tag 0x15 .unchanged [Fld.u32 stored, Fld.u32 day]))) ∧
    ∀ items sweeps, (s.index.event q.key = none ∧ s.index.events.length < 65536 ∧ items = [] ∨
        ∃ e, s.index.event q.key = some e ∧ items = e.items ∧ ∀ stored, e.posted = some stored → stored < day) →
      sweeps = (if items = [] then [] else [SweepReq.event q.key]) →
      (s.index.admits sweeps = false →
        exec (.eventPost tag (.fields q)) s = .next (s.emit (replyFrame tag 0x15 .sweepFull []))) ∧
      (s.index.admits sweeps = true → s.slotFree = false →
        exec (.eventPost tag (.fields q)) s = .next (s.emit (replyFrame tag 0x15 .auditFull []))) ∧
      (s.index.admits sweeps = true → s.slotFree = true →
        ∃ t, exec (.eventPost tag (.fields q)) s = .next t ∧ KeepsAllBut (.index :: recordBlocks) s t ∧
          t.index.event q.key = some { posted := some day, items } ∧
          (∀ k, k ≠ q.key → t.index.event k = s.index.event k) ∧ (∀ n, t.index.item n = s.index.item n) ∧
          t.index.calendar = s.index.calendar ∧ t.index.next = s.index.next ∧ t.clock.counter = s.clock.counter ∧
          t.index.sweeps = s.index.sweeps ++ sweeps.filter (fun r => decide (r ∉ s.index.waiting)) ∧
          (s.index.run ≠ none → t.index.run = s.index.run) ∧
          (s.index.run = none → s.index.sweeps = [] →
            t.index.run = if items = [] then none else some { limit := items.length, cursor := 0, changed := 0 }) ∧
          Accepted s t tag 0x15 (if day = q.day then .ok else .clamped) [Fld.u32 day, Fld.u8 1] .eventPosted
            ([Fld.u64 q.key.toNat, Fld.u32 q.day, Fld.u32 day] ++ Fld.eventState (s.index.event q.key) ++
              [Fld.u8 (if items = [] then 2 else if .event q.key ∈ s.index.waiting then 1 else 0)]))

/-- EVENT_READ and SWEEP_STATUS answer as R108 and R116 say and change nothing else. DISPO_LIST and DISPO_STATUS answer as R142
and R143 say and change nothing else. Field widths that section 10.6 does not give are log entry 13's. -/
def Obligations.IndexReads : Prop :=
  (∀ (tag : Byte) (q : EventRead) (s : State), s.taking = true →
     (q.count = 0 ∨ 256 < q.count →
       exec (.eventRead tag (.fields q)) s = .next (s.emit (replyFrame tag 0x16 .badField []))) ∧
     (1 ≤ q.count → q.count ≤ 256 → s.index.event q.key = none →
       exec (.eventRead tag (.fields q)) s = .next (s.emit (replyFrame tag 0x16 .notFound []))) ∧
     (∀ e, 1 ≤ q.count → q.count ≤ 256 → s.index.event q.key = some e →
       exec (.eventRead tag (.fields q)) s = .next (s.emit (replyFrame tag 0x16 .ok
         ([Fld.u8 (if e.posted.isSome then 1 else 0)] ++ Fld.opt 4 e.posted ++ [Fld.u32 e.items.length] ++
           Fld.list (((e.items.drop q.first).take q.count).map Fld.u24))))) ∧
     (s.index.sweeps = [] → s.index.run = none →
       exec (.sweepStatus tag (.fields ())) s = .next (s.emit (replyFrame tag 0x17 .ok [Fld.u16 0]))) ∧
     ∀ r rs u, s.index.sweeps = r :: rs → s.index.run = some u →
       exec (.sweepStatus tag (.fields ())) s = .next (s.emit (replyFrame tag 0x17 .ok
         (Fld.rows ((r :: rs).map Fld.sweepReq) ++
           [Fld.u8 (if r.past u then 1 else 0), Fld.u32 u.limit, Fld.u32 u.cursor, Fld.u32 u.changed])))) ∧
  (∀ (tag : Byte) (q : Window) (s : State), s.taking = true →
     (q.count = 0 ∨ 64 < q.count → exec (.dispoList tag (.fields q)) s = .next (s.emit (replyFrame tag 0x1F .badField []))) ∧
     (1 ≤ q.count → q.count ≤ 64 → exec (.dispoList tag (.fields q)) s = .next (s.emit (replyFrame tag 0x1F .ok
       (Fld.u32 s.dispo.queue.length :: Fld.rows (((s.dispo.queue.zipIdx.drop q.first).take q.count).map
         (fun e => [Fld.u32 e.2, Fld.u24 e.1.item, Fld.u32 e.1.day])))))) ∧
     exec (.dispoStatus tag (.fields ())) s = .next (s.emit (replyFrame tag 0x21 .ok
       ([Fld.u32 s.dispo.queue.length] ++ Fld.opt 4 (s.dispo.queue.head?.map (·.day)) ++
         Fld.opt 4 (s.dispo.queue.getLast?.map (·.day)) ++
         [Fld.u32 (s.index.dueSet s.today).length, Fld.yes s.dispo.duePause,
           Fld.yes (decide (s.index.dueSet s.today ≠ [] ∧ s.clock.state = .unset))] ++
         [Fld.u32 s.dispo.list.length, Fld.yes (decide (s.dispo.list ≠ [] ∧ s.slotFree = false)),
           Fld.yes (decide (s.dispo.list ≠ [] ∧ s.clock.state = .unset))] ++
         (match s.dispo.batch with
           | some b => [Fld.yes true, Fld.yes b.auto, Fld.u64 b.second, Fld.u32 b.size, Fld.u32 b.disposed, Fld.u32 b.held,
               Fld.u32 b.retained]
           | none => [Fld.yes false, { width := 25, value := 0 }]) ++
         [Fld.yes s.settings.auto, Fld.u32 s.settings.grace, Fld.yes s.dispo.autoWait]))))

/-- A CLASS sweep step on a live item that carries the class, and an EVENT sweep step on a live item of the key's list, recompute and
merge its expiry and move it (R94, R95, R109, R110); a CLASS step on a key's item adds it to that key's list alone where the class is
EVENT-anchored (R105). An ELIGIBLE item that becomes RETAINED leaves the disposition queue, which ends the due pause; the disposal list
and everything else of the unit stay (R95, R110, R139). At any other item the step only advances the cursor (R113). -/
def Obligations.ClassAndEventSteps : Prop :=
  (∀ (s : State) (c : Nat) (rs : List SweepReq) (u : SweepRun), s.taking = true → s.index.sweeps = .cls c :: rs →
    s.index.run = some u → u.cursor ≤ u.limit →
    ∃ t changed, exec .classSweepStep s = .next t ∧ KeepsAllBut [.index, .dispo] s t ∧ StepTaken s t u.cursor u changed ∧
      (∀ r l, s.index.item u.cursor = some r → r.body = .live l → c ∈ r.classes →
        Recomputed s t u.cursor r l changed ∧
        (∀ k', l.event ≠ some k' ∨ s.index.event k' = none → t.index.event k' = s.index.event k') ∧
        ∀ k e, l.event = some k → s.index.event k = some e → t.index.event k = some
          (if s.policy.anyEvent [c] = true ∧ u.cursor ∉ e.items then { e with items := e.items ++ [u.cursor] } else e)) ∧
      ((∀ r, s.index.item u.cursor = some r → r.carries c = false) →
        changed = false ∧ t.dispo = s.dispo ∧ t.index.items = s.index.items ∧ t.index.calendar = s.index.calendar ∧
          t.index.events = s.index.events)) ∧
  ∀ (s : State) (k : Key) (rs : List SweepReq) (u : SweepRun), s.taking = true → s.index.sweeps = .event k :: rs →
    s.index.run = some u → u.cursor < u.limit →
    ∃ t changed i, exec .eventSweepStep s = .next t ∧ KeepsAllBut [.index, .dispo] s t ∧ StepTaken s t i u changed ∧
      t.index.events = s.index.events ∧
      (∀ e n r l, s.index.event k = some e → e.items[u.cursor]? = some n → s.index.item n = some r → r.body = .live l →
        i = n ∧ Recomputed s t n r l changed) ∧
      (∀ e n r sec, s.index.event k = some e → e.items[u.cursor]? = some n → s.index.item n = some r → r.body = .disposed sec →
        changed = false ∧ t.dispo = s.dispo ∧ t.index.items = s.index.items ∧ t.index.calendar = s.index.calendar)

/-- A sweep whose cursor has passed its limit completes where an audit slot is free: SWEEP_DONE is appended and raised, the sweep
leaves the queue, a LIFTING matter with no other HOLD sweep in the queue becomes FREE and leaves every custodian's mask, and
the next sweep starts; otherwise nothing happens (R114, R121, R122). That the record gives the limit 4 bytes for every kind of sweep is
the model's choice, log entry 13 (DESIGN CHOICE). -/
def Obligations.SweepCompletion : Prop :=
  ∀ (s : State) (r : SweepReq) (rs : List SweepReq) (u : SweepRun), s.taking = true → s.index.sweeps = r :: rs →
    s.index.run = some u → Table.sorted s.hold.custodians = true →
    (r.past u = true ↔ match r with | .event _ => u.limit ≤ u.cursor | _ => u.limit < u.cursor) ∧
    (r.past u = false ∨ s.slotFree = false → exec .sweepCompletion s = .next s) ∧
    (r.past u = true → s.slotFree = true →
      ∃ t, exec .sweepCompletion s = .next t ∧ KeepsAllBut (.index :: .hold :: recordBlocks) s t ∧ Tells s t ∧
        Appended s t .sweepDone (Fld.sweepReq r ++ [Fld.u32 u.limit, Fld.u32 u.changed]) ∧
        t.link.flags.getLsbD 6 = true ∧ t.clock.counter = s.clock.counter ∧ t.index.items = s.index.items ∧
        t.index.calendar = s.index.calendar ∧ t.index.events = s.index.events ∧ t.index.next = s.index.next ∧
        t.index.sweeps = rs ∧ (rs = [] → t.index.run = none) ∧
        (∀ r' rs', rs = r' :: rs' → t.index.run = some (s.index.startRun r')) ∧
        (∀ m f, r = .hold m → s.hold.matter m = .lifting f → r ∉ rs →
          t.hold.matter m = .free ∧ (∀ k, k ≠ m → t.hold.matter k = s.hold.matter k) ∧
          ∀ p, Table.find t.hold.custodians p = (Table.find s.hold.custodians p).bind (fun e =>
            if e.mask &&& ~~~(bit64 m) = 0 then none else some { e with mask := e.mask &&& ~~~(bit64 m) })) ∧
        ((∀ m f, r = .hold m → s.hold.matter m = .lifting f → r ∈ rs) → t.hold = s.hold))

/-! ### Chapter 6 -/

/-- Matter m covers an item exactly where it is ACTIVE, names the item's domain, has no range or one the sent day lies in, and is for
all parties or has a party of the item among its custodians (R126). -/
def Obligations.Coverage : Prop :=
  ∀ (h : Hold) (m domain sentDay : Nat) (parties : List Key),
    (h.covers m domain sentDay parties = true ↔
      ∃ f, h.matter m = .active f ∧ f.domains.getLsbD domain = true ∧
        (∀ a b, f.range = some (a, b) → a ≤ sentDay ∧ sentDay ≤ b) ∧
        (f.allParties = true ∨ ∃ k ∈ parties, (h.maskOf k).getLsbD m = true)) ∧
    (h.coverage domain sentDay parties).getLsbD m = (decide (m < 64) && h.covers m domain sentDay parties)

/-- MATTER_OPEN, MATTER_AMEND and MATTER_CLOSE: the first refusal of R118, R119 or R120 that applies; and an accepted one writes
the matter's fields and state, appends its record and presents a HOLD sweep of it. Field widths that section 10.6 does not give
are log entry 13's. -/
def Obligations.MatterRequests : Prop :=
  ∀ (tag : Byte) (m : Nat) (f : MatterFields) (s : State) (bad full : Prop), s.taking = true →
    (bad ↔ 63 < m ∨ ∃ a b, f.range = some (a, b) ∧ (73048 < a ∨ 73048 < b ∨ b < a)) →
    (full ↔ .hold m ∉ s.index.waiting ∧ 16 ≤ s.index.sweeps.length) →
    (bad → exec (.matterOpen tag (.fields { matter := m, body := f })) s = .next (s.emit (replyFrame tag 0x18 .badField [])) ∧
      exec (.matterAmend tag (.fields { matter := m, body := f })) s = .next (s.emit (replyFrame tag 0x19 .badField []))) ∧
    (63 < m → exec (.matterClose tag (.fields m)) s = .next (s.emit (replyFrame tag 0x1A .badField []))) ∧
    (¬bad → s.hold.matter m ≠ .free →
      exec (.matterOpen tag (.fields { matter := m, body := f })) s = .next (s.emit (replyFrame tag 0x18 .busy []))) ∧
    ((∀ g, s.hold.matter m ≠ .active g) →
      (¬bad → exec (.matterAmend tag (.fields { matter := m, body := f })) s =
        .next (s.emit (replyFrame tag 0x19 .badContext []))) ∧
      (m ≤ 63 → exec (.matterClose tag (.fields m)) s = .next (s.emit (replyFrame tag 0x1A .badContext [])))) ∧
    (¬bad → s.hold.matter m = .free →
      (full → exec (.matterOpen tag (.fields { matter := m, body := f })) s =
        .next (s.emit (replyFrame tag 0x18 .sweepFull []))) ∧
      (¬full → s.slotFree = false → exec (.matterOpen tag (.fields { matter := m, body := f })) s =
        .next (s.emit (replyFrame tag 0x18 .auditFull []))) ∧
      (¬full → s.slotFree = true →
        ∃ t, exec (.matterOpen tag (.fields { matter := m, body := f })) s = .next t ∧
          KeepsAllBut (.hold :: .index :: recordBlocks) s t ∧ t.hold.matter m = .active f ∧
          (∀ k, k ≠ m → t.hold.matter k = s.hold.matter k) ∧ t.hold.custodians = s.hold.custodians ∧
          t.index = s.index.enqueue [.hold m] ∧ t.clock.counter = s.clock.counter ∧
          Accepted s t tag 0x18 .ok (Fld.matter (.active f)) .matterOpened (Fld.u8 m :: Fld.matterFields f))) ∧
    ∀ g, s.hold.matter m = .active g →
      (¬bad → g = f → exec (.matterAmend tag (.fields { matter := m, body := f })) s =
        .next (s.emit (replyFrame tag 0x19 .unchanged []))) ∧
      (¬bad → g ≠ f → full → exec (.matterAmend tag (.fields { matter := m, body := f })) s =
        .next (s.emit (replyFrame tag 0x19 .sweepFull []))) ∧
      (¬bad → g ≠ f → ¬full → s.slotFree = false → exec (.matterAmend tag (.fields { matter := m, body := f })) s =
        .next (s.emit (replyFrame tag 0x19 .auditFull []))) ∧
      (¬bad → g ≠ f → ¬full → s.slotFree = true →
        ∃ t, exec (.matterAmend tag (.fields { matter := m, body := f })) s = .next t ∧
          KeepsAllBut (.hold :: .index :: recordBlocks) s t ∧ t.hold.matter m = .active f ∧
          (∀ k, k ≠ m → t.hold.matter k = s.hold.matter k) ∧ t.hold.custodians = s.hold.custodians ∧
          t.index = s.index.enqueue [.hold m] ∧ t.clock.counter = s.clock.counter ∧
          Accepted s t tag 0x19 .ok (Fld.matter (.active f)) .matterAmended
            (Fld.u8 m :: (Fld.matterFields g ++ Fld.matterFields f ++
              [Fld.u8 (if .hold m ∈ s.index.waiting then 1 else 0)]))) ∧
      (m ≤ 63 → full → exec (.matterClose tag (.fields m)) s = .next (s.emit (replyFrame tag 0x1A .sweepFull []))) ∧
      (m ≤ 63 → ¬full → s.slotFree = false →
        exec (.matterClose tag (.fields m)) s = .next (s.emit (replyFrame tag 0x1A .auditFull []))) ∧
      (m ≤ 63 → ¬full → s.slotFree = true →
        ∃ t, exec (.matterClose tag (.fields m)) s = .next t ∧ KeepsAllBut (.hold :: .index :: recordBlocks) s t ∧
          t.hold.matter m = .lifting g ∧ (∀ k, k ≠ m → t.hold.matter k = s.hold.matter k) ∧
          t.hold.custodians = s.hold.custodians ∧ t.index = s.index.enqueue [.hold m] ∧ t.clock.counter = s.clock.counter ∧
          Accepted s t tag 0x1A .ok [] .matterClosed
            (Fld.u8 m :: (Fld.matterFields g ++ [Fld.u8 (if .hold m ∈ s.index.waiting then 1 else 0)])))

/-- CUSTODIAN_SET: the first outcome of R123 that applies; and an accepted one changes the one entry as R124 says, appends
CUSTODIAN_CHANGED and presents a HOLD sweep of each ACTIVE changed matter, all of them together (R124). That the record names the matter
before each answer, which R124 does not list, is the model's choice, log entry 13 (DESIGN CHOICE). -/
def Obligations.CustodianSetOutcome : Prop :=
  (∀ (h : Hold) (k : Key), Table.sorted h.custodians = true →
    (h.find k = none ↔ ∀ p e, Table.find h.custodians p = some e → e.key ≠ k) ∧
    (∀ p m, h.find k = some (p, m) → Table.find h.custodians p = some { key := k, mask := m }) ∧
    h.maskOf k = ((h.find k).map (·.2)).getD 0) ∧
  ∀ (tag : Byte) (q : CustodianSet) (s : State) (old : BitVec 64) (changed swept : List Nat), s.taking = true →
    old = s.hold.maskOf q.key → changed = (List.range 64).filter (fun m => old.getLsbD m != q.mask.getLsbD m) →
    swept = changed.filter s.hold.isActive →
    (q.mask = old → exec (.custodianSet tag (.fields q)) s = .next (s.emit (replyFrame tag 0x1C .unchanged []))) ∧
    (q.mask ≠ old → (∃ m ∈ changed, ∃ f, s.hold.matter m = .lifting f) →
      exec (.custodianSet tag (.fields q)) s = .next (s.emit (replyFrame tag 0x1C .busy []))) ∧
    (q.mask ≠ old → (∀ m ∈ changed, ∀ f, s.hold.matter m ≠ .lifting f) →
      (s.hold.find q.key = none → Table.firstFree s.hold.custodians 0 4096 = none →
        exec (.custodianSet tag (.fields q)) s = .next (s.emit (replyFrame tag 0x1C .tableFull []))) ∧
      ∀ p, (s.hold.find q.key = some (p, old) ∨
          s.hold.find q.key = none ∧ Table.firstFree s.hold.custodians 0 4096 = some p) →
        (s.index.admits (swept.map .hold) = false →
          exec (.custodianSet tag (.fields q)) s = .next (s.emit (replyFrame tag 0x1C .sweepFull []))) ∧
        (s.index.admits (swept.map .hold) = true → s.slotFree = false →
          exec (.custodianSet tag (.fields q)) s = .next (s.emit (replyFrame tag 0x1C .auditFull []))) ∧
        (s.index.admits (swept.map .hold) = true → s.slotFree = true →
          ∃ t, exec (.custodianSet tag (.fields q)) s = .next t ∧ KeepsAllBut (.hold :: .index :: recordBlocks) s t ∧
            Table.find t.hold.custodians p = (if q.mask = 0 then none else some { key := q.key, mask := q.mask }) ∧
            (∀ k, k ≠ p → Table.find t.hold.custodians k = Table.find s.hold.custodians k) ∧
            t.hold.matters = s.hold.matters ∧ t.index = s.index.enqueue (swept.map .hold) ∧
            t.clock.counter = s.clock.counter ∧
            Accepted s t tag 0x1C .ok [Fld.u32 p, Fld.u64 q.mask.toNat] .custodianChanged
              ([Fld.u64 q.key.toNat, Fld.u32 p, Fld.u64 old.toNat, Fld.u64 q.mask.toNat] ++
                Fld.rows (swept.map (fun m => [Fld.u8 m, Fld.u8 (if .hold m ∈ s.index.waiting then 1 else 0)])))))

/-- A HOLD sweep step on a live item whose coverage by the matter disagrees with its mask changes the mask bit and the hold count, and
acts by TABLE 6-2: an ELIGIBLE item then held leaves the queue and becomes EXPIRED_HELD, an EXPIRED_HELD item then free of holds becomes
RETAINED under its expiry day. An item that leaves the queue frees a place, so the due pause ends; the disposal list and everything else
of the unit stay, as they do where no item leaves it (R139). Otherwise the step only advances the cursor (R130, R131, R113). -/
def Obligations.HoldStep : Prop :=
  ∀ (s : State) (m : Nat) (rs : List SweepReq) (u : SweepRun), s.taking = true → s.index.sweeps = .hold m :: rs → m ≤ 63 →
    s.index.run = some u → u.cursor ≤ u.limit →
    ∃ t changed, exec .holdSweepStep s = .next t ∧ KeepsAllBut [.index, .dispo] s t ∧ StepTaken s t u.cursor u changed ∧
      t.index.events = s.index.events ∧
      ((∀ r l, s.index.item u.cursor = some r → r.body = .live l →
          s.hold.covers m r.domain l.sentDay l.parties = l.holdMask.getLsbD m) →
        changed = false ∧ t.dispo = s.dispo ∧ t.index.items = s.index.items ∧ t.index.calendar = s.index.calendar) ∧
      ∀ r l cov, s.index.item u.cursor = some r → r.body = .live l → cov = s.hold.covers m r.domain l.sentDay l.parties →
        cov ≠ l.holdMask.getLsbD m →
        changed = true ∧ ∃ r' l', t.index.item u.cursor = some r' ∧ r'.body = .live l' ∧
          { r' with body := r.body } = r ∧ { l' with state := l.state, holdMask := l.holdMask, holdCount := l.holdCount } = l ∧
          (∀ k, l'.holdMask.getLsbD k = if k = m then cov else l.holdMask.getLsbD k) ∧
          l'.holdCount = (if cov then l.holdCount + 1 else l.holdCount - 1) ∧
          l'.state = (match l.state with
            | .eligible => if 0 < l'.holdCount then .expiredHeld else .eligible
            | .expiredHeld => if l'.holdCount = 0 then .retained else .expiredHeld
            | x => x) ∧
          t.dispo = (if l.state = .eligible ∧ l'.state = .expiredHeld then
            { s.dispo with queue := s.dispo.queue.filter (fun e => e.item != u.cursor), duePause := false } else s.dispo) ∧
          ∀ d, t.index.day d = s.index.day d ++
            (if l.state = .expiredHeld ∧ l'.state = .retained ∧ r.expiry = .day d then [u.cursor] else [])

/-! ### Chapter 7 -/

/-- DISPO_RELEASE: the first refusal of R144 that applies; and an accepted one releases the entries named, or as many as the queue holds,
as R145 says, and ends the AUTO wait (R147). In AUTO mode an opportunity, or a wait that an audit slot ends, releases the grace run: the
entries from the head, at most 256, whose queued day plus the grace is no later than today. Nothing is released where the disposal list
holds items or the run is empty. An opportunity that finds a run and no free slot sets the wait; the wait ends where a slot is free,
whatever the run then is; in REVIEW mode nothing happens (R147). That an opportunity is a flag until it is settled is log entry 23. -/
def Obligations.Releases : Prop :=
  (∀ (tag : Byte) (q : DispoRelease) (s : State), s.taking = true →
     (q.n = 0 ∨ 256 < q.n → exec (.dispoRelease tag (.fields q)) s = .next (s.emit (replyFrame tag 0x20 .badField []))) ∧
     (1 ≤ q.n → q.n ≤ 256 → s.dispo.list ≠ [] →
       exec (.dispoRelease tag (.fields q)) s = .next (s.emit (replyFrame tag 0x20 .busy []))) ∧
     (1 ≤ q.n → q.n ≤ 256 → s.dispo.list = [] →
       (s.dispo.queue = [] → exec (.dispoRelease tag (.fields q)) s = .next (s.emit (replyFrame tag 0x20 .empty []))) ∧
       ∀ h es, s.dispo.queue = h :: es →
         (h.item ≠ q.first → exec (.dispoRelease tag (.fields q)) s =
           .next (s.emit (replyFrame tag 0x20 .stale [Fld.u24 h.item, Fld.u32 h.day]))) ∧
         (h.item = q.first → s.slotFree = false →
           exec (.dispoRelease tag (.fields q)) s = .next (s.emit (replyFrame tag 0x20 .auditFull []))) ∧
         (h.item = q.first → s.slotFree = true → ∀ n, n = min q.n s.dispo.queue.length →
           ∃ t, exec (.dispoRelease tag (.fields q)) s = .next t ∧ KeepsAllBut (.index :: .dispo :: recordBlocks) s t ∧
             Replied s t tag 0x20 (if n = q.n then .ok else .clamped) [Fld.u32 n] ∧ ReleasedAs s t false n (some q.n) ∧
             t.dispo.autoWait = false ∧ t.dispo.opportunity = s.dispo.opportunity))) ∧
  (∀ (s : State), s.taking = true →
     (s.settings.auto = false → exec .autoRelease s = .next s) ∧
     (s.dispo.opportunity = false → s.dispo.autoWait = false → exec .autoRelease s = .next s) ∧
     ∀ n, n ≤ 256 → n ≤ s.dispo.queue.length →
       (∀ e ∈ s.dispo.queue.take n, e.day + s.settings.grace ≤ s.clock.counter / 86400) →
       (n = 256 ∨ ∀ e, s.dispo.queue[n]? = some e → s.clock.counter / 86400 < e.day + s.settings.grace) →
       s.settings.auto = true →
       (s.slotFree = true → (s.dispo.opportunity = true ∨ s.dispo.autoWait = true) →
         (s.dispo.list ≠ [] ∨ n = 0 →
           exec .autoRelease s = .next { s with dispo := { s.dispo with opportunity := false, autoWait := false } }) ∧
         (s.dispo.list = [] → 1 ≤ n →
           ∃ t, exec .autoRelease s = .next t ∧ KeepsAllBut (.index :: .dispo :: recordBlocks) s t ∧ Tells s t ∧
             ReleasedAs s t true n none ∧ t.dispo.opportunity = false ∧ t.dispo.autoWait = false)) ∧
       (s.slotFree = false →
         (s.dispo.opportunity = false → exec .autoRelease s = .next s) ∧
         (s.dispo.opportunity = true → exec .autoRelease s = .next { s with dispo := { s.dispo with
           opportunity := false, autoWait := s.dispo.autoWait || decide (s.dispo.list = [] ∧ 1 ≤ n) } })))

/-- Due processing takes the head of the due set while the clock is not UNSET and the queue has room: the item leaves the calendar, its
mask is synced, and it becomes EXPIRED_HELD, or ELIGIBLE at the tail of the queue under today, with DISPO_READY where the queue was
empty; a queue it fills sets the due pause (R137 to R139). When the due pause is set is log entry 29. The due set is the lists of the
days up to today, day by day (R103). -/
def Obligations.DueProcessingOutcome : Prop :=
  (∀ (x : Index) (today : Nat), Table.sorted x.calendar = true → x.dueSet today = ((List.range (today + 1)).map x.day).flatten) ∧
  ∀ (s : State), s.taking = true →
    (s.clock.state = .unset ∨ s.index.dueSet s.today = [] → exec .dueProcessing s = .next s) ∧
    (∀ i is, s.clock.state ≠ .unset → s.index.dueSet s.today = i :: is → 65536 ≤ s.dispo.queue.length →
      exec .dueProcessing s = .next { s with dispo := { s.dispo with duePause := true } }) ∧
    ∀ i is r l, s.clock.state ≠ .unset → s.index.dueSet s.today = i :: is → s.dispo.queue.length < 65536 →
      s.index.item i = some r → r.body = .live l →
      ∃ t l', exec .dueProcessing s = .next t ∧ KeepsAllBut [.index, .dispo, .link] s t ∧ Synced s r l l' ∧ Tells s t ∧
        (∀ d, t.index.day d =
          if r.expiry = .day d then (s.index.day d).filter (fun j => j != i) else s.index.day d) ∧
        (∀ n, n ≠ i → t.index.item n = s.index.item n) ∧
        t.index.item i = some { r with
          body := .live { l' with state := if l'.holdMask = 0 then .eligible else .expiredHeld } } ∧
        (l'.holdMask = 0 → t.dispo.queue = s.dispo.queue ++ [{ item := i, day := s.clock.counter / 86400 }] ∧
          t.dispo.duePause = decide (s.dispo.queue.length + 1 = 65536) ∧
          (s.dispo.queue = [] → t.link.flags.getLsbD 7 = true) ∧ (s.dispo.queue ≠ [] → t.link = s.link)) ∧
        (l'.holdMask ≠ 0 → t.dispo = s.dispo ∧ t.link = s.link)

/-- The disposal event of the head of the disposal list, with an audit slot free and the clock not UNSET: a later expiry returns the item
to RETAINED, a covering matter makes it EXPIRED_HELD, and otherwise its record becomes a tombstone, its classes' in-use counts fall and
ITEM_DISPOSED is appended; it leaves the list in each case, and a list left empty raises DISPOSAL_DONE and in AUTO mode gives an
opportunity (R149 to R152). The tombstone's slots give up their refs: an entry that k of them name loses k, unless it is pinned, and is
freed where neither refs nor claims are left; the record counts the entries freed (R65 to R67, R151 (1)). The pages of each freed entry
die as `SegDataOutcome` states it of any location, so that a FULL zone then without live pages is RECLAIMING at the tail of its RECLAIM
queue (R158), entry after entry in slot order, an entry at the last slot that names it where its refs are as many as those slots or more,
as the fifth law has it (R65; `StorageLawsHold`); media and drain then settle. The opportunity is the flag of log entry 23. -/
def Obligations.DisposalEventOutcome : Prop :=
  ∀ (s : State), s.taking = true →
    (s.slotFree = false ∨ s.clock.state = .unset ∨ s.dispo.list = [] → exec .disposalEvent s = .next s) ∧
    ∀ i is r l, s.slotFree = true → s.clock.state ≠ .unset → s.dispo.list = i :: is → s.index.item i = some r →
      r.body = .live l →
      ∃ t l', exec .disposalEvent s = .next t ∧
        KeepsAllBut (.segs :: .policy :: .index :: .dispo :: recordBlocks) s t ∧ Synced s r l l' ∧ Tells s t ∧
        t.dispo.list = is ∧ t.dispo.queue = s.dispo.queue ∧ (∀ n, n ≠ i → t.index.item n = s.index.item n) ∧
        (is = [] → t.link.flags.getLsbD 8 = true ∧ (s.settings.auto = true → t.dispo.opportunity = true)) ∧
        (r.expiry.laterThan s.today = true →
          t.index.item i = some { r with body := .live { l with state := .retained } } ∧
          (∀ d, t.index.day d = s.index.day d ++ (if r.expiry = .day d then [i] else [])) ∧
          t.dispo.batch = s.dispo.batch.map (fun b => { b with retained := b.retained + 1 }) ∧ t.segs = s.segs ∧
          t.policy = s.policy ∧ t.clock = s.clock ∧ t.audit.buffer = s.audit.buffer ∧ Settles t s.media s.audit) ∧
        (r.expiry.laterThan s.today = false → l'.holdMask ≠ 0 →
          t.index.item i = some { r with body := .live { l' with state := .expiredHeld } } ∧
          t.index.calendar = s.index.calendar ∧
          t.dispo.batch = s.dispo.batch.map (fun b => { b with held := b.held + 1 }) ∧ t.segs = s.segs ∧
          t.policy = s.policy ∧ t.clock = s.clock ∧ t.audit.buffer = s.audit.buffer ∧ Settles t s.media s.audit) ∧
        (r.expiry.laterThan s.today = false → l'.holdMask = 0 →
          t.index.item i = some { r with body := .disposed s.clock.counter } ∧ t.index.calendar = s.index.calendar ∧
          t.dispo.batch = s.dispo.batch.map (fun b => { b with disposed := b.disposed + 1 }) ∧
          (∀ c, (t.policy.cls c).inUse = (s.policy.cls c).inUse - r.classes.count c ∧
            (t.policy.cls c).state = (s.policy.cls c).state) ∧
          (∀ ref, s.segs.entry ref = none → t.segs.entry ref = none) ∧
          (∀ ref e k, s.segs.entry ref = some e → e.stored = true → k = l.segs.countP (fun g => decide (g.ref = ref)) →
            (k = 0 ∨ e.pinned = true → t.segs.entry ref = some e) ∧
            (1 ≤ k → e.pinned = false →
              t.segs.entry ref = if e.refs ≤ k ∧ e.claims = 0 then none else some { e with refs := e.refs - k })) ∧
          ∃ freed : List EntryRef, freed.Nodup ∧
            (∀ ref, ref ∈ freed ↔ (s.segs.entry ref).isSome = true ∧ t.segs.entry ref = none) ∧
            ((∀ ref e, s.segs.entry ref = some e → e.stored = true → e.pinned = false →
                l.segs.countP (fun g => decide (g.ref = ref)) ≤ e.refs) →
              freed = ((l.segs.map (·.ref)).reverse.eraseDups.filter
                (fun ref => (s.segs.entry ref).isSome && (t.segs.entry ref).isNone)).reverse) ∧
            ∀ subject, subject =
                [Fld.u24 i, Fld.u8 r.domain, Fld.u64 r.commitSecond] ++ Fld.classSet r.classes ++ Fld.expiry r.expiry ++
                  [Fld.u64 s.clock.counter, Fld.digest r.fingerprint, Fld.remarks r.remarks, Fld.u32 freed.length] →
              Appended s t .itemDisposed subject ∧
              Settles t (freed.foldl (fun m ref => (s.segs.entry ref).elim m (fun e => m.deadPages e.loc)) s.media)
                (s.audit.append s.clock.counter s.timer .itemDisposed subject))

/-! ### Chapter 8 -/

/-- A placement of P pages tries the channels from the one after the last used, wrapping from 3 to 0, and takes the first that can grant
it: an IN_SERVICE channel whose INGEST_OPEN zone has room for it, at that zone's write point, or else one with a BLANK zone while F is
greater than SPACE_RESERVE, at page 0 of the lowest one. The write point and the live count rise by P, and the zone becomes FULL where
it is used up. An INGEST_OPEN zone that a new one replaces becomes FULL, or RECLAIMING at the tail of the RECLAIM queue where it holds
no live page. Refused exactly where no channel can do either (R158 to R160). F is the number of BLANK data zones on IN_SERVICE channels
(R161); a zone looked for by its state is the lowest one. -/
def Obligations.Placement : Prop :=
  (∀ (c : Channel) (st : ZoneState), Table.sorted c.zones = true → (∀ e ∈ c.zones, e.1 ≤ 8190) →
    (∀ z, st ≠ .blank → (c.zoneIn st = some z ↔ (c.zone z).state = st ∧ ∀ y, y < z → (c.zone y).state ≠ st)) ∧
    (∀ z, c.lowestBlank = some z ↔ z ≤ 8190 ∧ (c.zone z).state = .blank ∧ ∀ y, y < z → (c.zone y).state ≠ .blank) ∧
    c.countZones st = (List.range 8191).countP (fun z => decide ((c.zone z).state = st))) ∧
  (∀ m : Media, m.freeZones =
    ((chanNos.filter (fun i => decide ((m.get i).state = .inService))).map (fun i => (m.get i).countZones .blank)).sum) ∧
  ∀ (set : Settings) (m : Media) (p : Nat) (ref : EntryRef) (cannot : ChanNo → Prop), 1 ≤ p → p ≤ 1024 →
    (∀ i, Table.sorted (m.get i).zones = true) →
    (∀ i, cannot i ↔ ((m.get i).state = .inService →
      (∀ z, (m.get i).zoneIn .ingestOpen = some z → 4096 < ((m.get i).zone z).wp + p) ∧
        (m.freeZones ≤ set.reserve ∨ (m.get i).lowestBlank = none))) →
    (m.place set p ref = none ↔ ∀ i, cannot i) ∧
    ∀ m' l c c', m.place set p ref = some (m', l) → c = m.get l.chan → c' = m'.get l.chan →
      c.state = .inService ∧ ¬cannot l.chan ∧ l.count = p ∧ l.first + p ≤ 4096 ∧ m'.last = l.chan ∧
      (∃ before after, [m.last + 1, m.last + 2, m.last + 3, m.last] = before ++ l.chan :: after ∧ ∀ i ∈ before, cannot i) ∧
      (∀ i, i ≠ l.chan → m'.get i = m.get i) ∧
      c'.uploads = c.uploads ++ [{ ref, zone := l.zone, first := l.first, count := p, passed := 0 }] ∧
      (c'.zone l.zone).wp = l.first + p ∧ (c'.zone l.zone).state = (if l.first + p = 4096 then .full else .ingestOpen) ∧
      (∀ z, c.zoneIn .ingestOpen = some z → (c.zone z).wp + p ≤ 4096 →
        l.zone = z ∧ l.first = (c.zone z).wp ∧ (c'.zone z).live = (c.zone z).live + p ∧ c'.reclaimQ = c.reclaimQ ∧
          ∀ y, y ≠ z → c'.zone y = c.zone y) ∧
      ((∀ z, c.zoneIn .ingestOpen = some z → 4096 < (c.zone z).wp + p) →
        set.reserve < m.freeZones ∧ (c.zone l.zone).state = .blank ∧ l.zone ≤ 8190 ∧
        (∀ y, y < l.zone → (c.zone y).state ≠ .blank) ∧ l.first = 0 ∧ (c'.zone l.zone).live = p ∧
        (c.zoneIn .ingestOpen = none → c'.reclaimQ = c.reclaimQ ∧ ∀ y, y ≠ l.zone → c'.zone y = c.zone y) ∧
        ∀ z, c.zoneIn .ingestOpen = some z →
          c'.zone z = { c.zone z with state := if (c.zone z).live = 0 then .reclaiming else .full } ∧
          c'.reclaimQ = c.reclaimQ ++ (if (c.zone z).live = 0 then [z] else []) ∧
          ∀ y, y ≠ l.zone → y ≠ z → c'.zone y = c.zone y)

/-- What a channel's module is given. While an operation is in flight nothing; then IDENTIFY where it is owed, but for a module that was
at an erase at the link reset, which is asked when that erase has ended (R178 (1), log entry 30); nothing while the channel is OFFLINE,
and nothing while a probe waits for the idle module (R166). An AUDIT page goes before every class, at the write point of the AUDIT_OPEN
zone, which becomes AUDIT_CLOSED at page 4,095, or else at page 0 of the lowest BLANK zone; with neither the whole AUDIT queue is handed
back, held in sequence order, and the module is given what it is given without it (R163). While an erase is SUSPENDED the READ head
follows, and with both queues empty RESUME (R169). Otherwise the classes READ, INGEST on an IN_SERVICE channel, RECLAIM, in this order,
the first with work and a credit, its credit falling by 1; where none has both, a new round begins with the weights, the INGEST credit 1
while F is below SPACE_THROTTLE; with no work the module stays idle (R166, R167). A read or audit page that arrives while an erase is
RUNNING, suspended fewer than 8 times and by no SUSPEND that failed, issues SUSPEND, and one that arrives otherwise waits (R168, log
entry 17). -/
def Obligations.Arbiter : Prop :=
  (∀ (set : Settings) (s : Store) (i : ChanNo) (c : Channel), c = s.media.get i →
    (c.op.isSome = true → s.dispatch set i = s) ∧
    (c.op = none → c.askOwed = true → (∀ e, c.erase = some e → e.askAfter = false) →
      s.dispatch set i = s.put i { c with op := some .identify, askOwed := false }) ∧
    (c.op = none → c.askOwed = false ∨ (∃ e, c.erase = some e ∧ e.askAfter = true) →
      (c.state = .offline → s.dispatch set i = s) ∧
      (c.state ≠ .offline →
        (∀ q, c.probe = some q → c.erase = none → q.stage = .waiting → s.dispatch set i = s) ∧
        (c.erase ≠ none ∨ c.state = .inService ∧ (∀ q, c.probe = some q → q.stage ≠ .waiting) → ∀ p ps, c.auditQ = p :: ps →
          (∀ z used, c.zoneIn .auditOpen = some z → used = { c.zone z with
              state := if (c.zone z).wp + 1 = 4096 then .auditClosed else .auditOpen, wp := (c.zone z).wp + 1 } →
            s.dispatch set i =
              s.put i { c.setZone z used with auditQ := ps, op := some (.programAudit z (c.zone z).wp p true) }) ∧
          (∀ z used, c.lowestBlank = some z → used = { c.zone z with state := .auditOpen, wp := 1 } → c.zoneIn .auditOpen = none →
            s.dispatch set i = s.put i { c.setZone z used with auditQ := ps, op := some (.programAudit z 0 p true) }) ∧
          (c.zoneIn .auditOpen = none → c.lowestBlank = none → ∃ held,
            s.dispatch set i = Store.dispatch set
              { media := s.media.set i { c with auditQ := [] }, audit := { s.audit with held := held } } i ∧
            (∀ q, q ∈ held ↔ q ∈ s.audit.held ∨ q ∈ c.auditQ) ∧
            (s.audit.held.Pairwise (fun x y => x.first ≤ y.first) → held.Pairwise (fun x y => x.first ≤ y.first)))) ∧
        (∀ e, c.erase = some e → c.auditQ = [] →
          (∀ r rs, c.readQ = r :: rs → s.dispatch set i = s.put i { c with readQ := rs, op := some (.read r) }) ∧
          (c.readQ = [] → s.dispatch set i = s.put i { c with op := some .resume, erase := some { e with cond := .resuming } })) ∧
        ∀ fresh k busy, fresh = ({ read := set.readWeight, reclaim := set.reclaimWeight
                                   ingest := if s.media.freeZones < set.throttle then 1 else set.ingestWeight } : Credits) →
          (busy ↔ c.readQ ≠ [] ∧ 1 ≤ c.credits.read ∨ c.state = .inService ∧ c.ingestQ ≠ [] ∧ 1 ≤ c.credits.ingest ∨
            c.reclaimQ ≠ [] ∧ 1 ≤ c.credits.reclaim) →
          (busy → k = c.credits) → (¬busy → k = fresh) →
          c.erase = none → (∀ q, c.probe = some q → q.stage ≠ .waiting) → c.auditQ = [] ∨ c.state ≠ .inService →
          (∀ r rs, c.readQ = r :: rs → 1 ≤ k.read → s.dispatch set i =
            s.put i { c with readQ := rs, op := some (.read r), credits := { k with read := k.read - 1 } }) ∧
          (c.readQ = [] ∨ k.read = 0 →
            (∀ g gs, c.ingestQ = g :: gs → c.state = .inService → 1 ≤ k.ingest → s.dispatch set i = s.put i
              { c with ingestQ := gs, op := some (.programIngest g true), credits := { k with ingest := k.ingest - 1 } }) ∧
            (c.state ≠ .inService ∨ c.ingestQ = [] ∨ k.ingest = 0 → ∀ z zs, c.reclaimQ = z :: zs → 1 ≤ k.reclaim →
              s.dispatch set i = s.put i
                { c with reclaimQ := zs, op := some (.erase z), credits := { k with reclaim := k.reclaim - 1 },
                         erase := some { zone := z, cond := .running, count := 0, failed := false, askAfter := false } })) ∧
          (c.readQ = [] → c.state ≠ .inService ∨ c.ingestQ = [] → c.reclaimQ = [] → s.dispatch set i = s) ∧
          (1 ≤ fresh.read → 1 ≤ fresh.ingest → 1 ≤ fresh.reclaim →
            c.readQ ≠ [] ∨ c.state = .inService ∧ c.ingestQ ≠ [] ∨ c.reclaimQ ≠ [] →
            ((s.dispatch set i).media.get i).op.isSome = true)))) ∧
  ∀ (c : Channel) (r : PageRead) (p : AuditPage),
    (∀ z e, c.op = some (.erase z) → c.erase = some e → e.cond = .running → e.count < 8 → e.failed = false →
      ∀ e', e' = { e with cond := .suspending, count := e.count + 1 } →
        c.pushRead r = { c with readQ := c.readQ ++ [r], op := some .suspend, erase := some e' } ∧
        c.pushAudit p = { c with auditQ := c.auditQ ++ [p], op := some .suspend, erase := some e' }) ∧
    ((∀ z, c.op ≠ some (.erase z)) ∨ c.erase = none ∨
        (∃ e, c.erase = some e ∧ (e.cond ≠ .running ∨ 8 ≤ e.count ∨ e.failed = true)) →
      c.pushRead r = { c with readQ := c.readQ ++ [r] } ∧ c.pushAudit p = { c with auditQ := c.auditQ ++ [p] })

/-- A PROGRAM completes, an ingest page's or an audit page's. What the completion itself leaves is the state `mid`; then the commit-ready
list commits as at DEFERRED_COMMIT where an audit slot is free (R40, R181; log entry 38), and the media and the drain settle. An ingest
page's PASS counts toward its upload (R162), and the last makes the entry STORED with a claim for the owner and each waiter, each of them
READY and told, and any context that is then ready to commit in the list (R34, R59, R40). Its FAIL makes the owner slot EMPTY and told
with the cause MEDIA, withdraws the upload and hands it over to the waiters (R35, R60, R61, R170 (1)). An audit page's PASS takes its
records out of the buffer into the page map (R185 (1), R186); its FAIL puts it back at the head of the queue (R170 (2)). A PASS clears the
consecutive-fail count, a FAIL raises it, and the fourth fences an IN_SERVICE channel with every step of R171, raising CHANNEL_FENCED. A
page whose upload has been withdrawn or has failed, and a page that a link reset has passed over, count so too and concern no upload and
no audit page (R162, R170 (1), R178 (2)). That the page's upload fails before the count is raised is log entry 20. The completion is that
of the operation in flight (log entry 43). -/
def Obligations.ProgramOutcome : Prop :=
  (∀ (s mid : State) (i : ChanNo) (pass : Bool), s.powered = true →
    (∃ p staged, (s.media.get i).op = some (.programIngest p staged) ∧ mid = s.ingestDone i p staged pass) ∨
      (∃ z n p live, (s.media.get i).op = some (.programAudit z n p live) ∧ mid = s.auditDone i z n p live pass) →
    ∃ t, exec (.programComplete i pass) s = .next t ∧ KeepsAllBut commitBlocks s t ∧ Tells s mid ∧ Tells mid t ∧
      (mid.ingest.ready = [] ∨ mid.slotFree = false →
        KeepsAllBut [.ingest, .media, .audit, .link] mid t ∧ (∀ w, t.slotAt w = mid.slotAt w) ∧
          t.ingest.ready = mid.ingest.ready ∧ t.audit.buffer = mid.audit.buffer ∧
          (s.taking = true → Settles t mid.media mid.audit)) ∧
      (s.taking = true → mid.ingest.ready ≠ [] → mid.slotFree = true →
        ∃ v, exec .deferredCommit mid = .next v ∧ KeepsAllBut [.link] v t)) ∧
  (∀ (c : Channel) (p : StagePage), c.uploadOf p false = none ∧
    (c.uploadOf p true = none ↔ ∀ u ∈ c.uploads, ¬(u.zone = p.zone ∧ u.first ≤ p.page ∧ p.page < u.first + u.count)) ∧
    ∀ u, c.uploadOf p true = some u → u ∈ c.uploads ∧ u.zone = p.zone ∧ u.first ≤ p.page ∧ p.page < u.first + u.count) ∧
  (∀ (s : State) (i : ChanNo) (c : Channel) (done : Bool → State), ZonesInv s → c = s.media.get i →
    (∃ p staged, c.op = some (.programIngest p staged) ∧ c.uploadOf p staged = none ∧ done = s.ingestDone i p staged) ∨
      (∃ z n p, c.op = some (.programAudit z n p false) ∧ done = s.auditDone i z n p false) →
    done true = { s with media := s.media.set i { c with op := none, fails := 0 } } ∧
    (c.fails + 1 ≠ 4 ∨ c.state ≠ .inService →
      done false = { s with media := s.media.set i { c with op := none, fails := c.fails + 1 } }) ∧
    (c.fails + 1 = 4 → c.state = .inService →
      LeftService s (done false) i .programFails .fenced ∧ (done false).link.flags.getLsbD 4 = true)) ∧
  (∀ (s : State) (i : ChanNo) (c : Channel) (p : StagePage) (u : Upload), ZonesInv s → c = s.media.get i →
    c.op = some (.programIngest p true) → c.uploadOf p true = some u →
    (u.passed + 1 ≠ u.count → s.ingestDone i p true true =
      { s with media := s.media.set i { c with
          op := none, fails := 0, uploads := c.uploads.map (fun v => if v = u then { v with passed := v.passed + 1 } else v) } }) ∧
    ∀ e w, s.segs.entry u.ref = some e → e.owner = some w → w ∉ e.waiters →
      (∀ mid, mid = s.ingestDone i p true true → u.passed + 1 = u.count →
        (∀ x ∈ w :: e.waiters, ∃ d, (s.slotAt x).bind Slot.decl = some d) →
        mid.segs = s.segs.put u.ref { e with stored := true, claims := 1 + e.waiters.length, owner := none, waiters := [] } ∧
          mid.media = s.media.set i { c with op := none, fails := 0, uploads := c.uploads.filter (fun v => v != u) } ∧
          mid.audit = s.audit ∧
          (∀ x ∈ w :: e.waiters, readyReport x ∈ mid.link.tx ∧
            ∀ d, (s.slotAt x).bind Slot.decl = some d → mid.slotAt x = some (.ready d)) ∧
          ∀ x ∈ w :: e.waiters, ∀ o, mid.ctxOf x = some o → o.committing = true → o.allReady = true → x.ctx ∈ mid.ingest.ready) ∧
      ∀ mid, mid = s.ingestDone i p true false →
        Emptied s mid w ∧ ((s.ctxOf w).isSome = true → failedReport w 2 0 ∈ mid.link.tx) ∧
        (c.fails + 1 ≠ 4 ∨ c.state ≠ .inService → ∀ m, m = ((s.media.set i { c with op := none }).withdraw
            { chan := i, zone := u.zone, first := u.first, count := u.count }).deadPages e.loc →
          (mid.media.get i).fails = c.fails + 1 ∧ (mid.media.get i).state = c.state ∧ (mid.media.get i).op = none ∧
          (mid.media.get i).filling = c.filling.filter (fun g => !inRun u.zone u.first u.count g) ∧
          (mid.media.get i).ingestQ = c.ingestQ.filter (fun g => !inRun u.zone u.first u.count g) ∧
          HandedOver s mid m u.ref e e.waiters .media ∧
          ∀ m', m' = (if e.waiters = [] then m else ((m.place s.settings e.loc.count u.ref).map (·.1)).getD m) →
            mid.media = m'.set i { m'.get i with fails := c.fails + 1 }) ∧
        (c.fails + 1 = 4 → c.state = .inService → LeftService s mid i .programFails .fenced ∧ mid.link.flags.getLsbD 4 = true)) ∧
  ∀ (s : State) (i : ChanNo) (c : Channel) (z n : Nat) (p : AuditPage), ZonesInv s → c = s.media.get i →
    c.op = some (.programAudit z n p true) →
    s.auditDone i z n p true true = { s with
        media := s.media.set i { c with op := none, fails := 0 }
        audit := { s.audit with
          buffer := s.audit.buffer.filter (fun r => !decide (p.first ≤ r.seq ∧ r.seq < p.first + p.count))
          map := s.audit.map ++ [{ first := p.first, count := p.count, chan := i, zone := z, page := n }] } } ∧
      (c.fails + 1 ≠ 4 ∨ c.state ≠ .inService → s.auditDone i z n p true false =
        { s with media := s.media.set i { c with op := none, auditQ := p :: c.auditQ, fails := c.fails + 1 } }) ∧
      ∀ mid, mid = s.auditDone i z n p true false → c.fails + 1 = 4 → c.state = .inService →
        LeftService { s with media := s.media.set i { c with auditQ := p :: c.auditQ } } mid i .programFails .fenced ∧
          mid.link.flags.getLsbD 4 = true ∧ mid.audit.buffer = s.audit.buffer ∧ mid.audit.map = s.audit.map

/-- ERASE, SUSPEND and RESUME complete. An erase that passes makes its zone BLANK, one that fails makes it RETIRED with the record owed
(R165, R172); a SUSPEND PASS makes the erase SUSPENDED, its FAIL sets the suspend-failed mark and the erase runs on (R168); a RESUME
PASS lets it run, to be suspended again at once where such work waits, and its FAIL is a failed erase (R169). In each case the module's
work then goes on as the arbiter gives it. When a suspension is considered is log entry 17. The completion is that of the operation in
flight (log entry 43). -/
def Obligations.EraseOutcome : Prop :=
  ∀ (s : State) (i : ChanNo) (pass : Bool) (c : Channel), s.taking = true → c = s.media.get i →
    (∀ z, c.op = some (.erase z) → ∃ t, exec (.eraseComplete i pass) s = .next t ∧
      KeepsAllBut [.media, .audit, .link] s t ∧ Tells s t ∧
      Settles t (s.media.set i ({ c.setZone z (if pass then { state := .blank, wp := 0, live := 0, owed := false }
        else { c.zone z with state := .retired, owed := true }) with op := none, erase := none })) s.audit) ∧
    (∀ e, c.op = some .suspend → c.erase = some e → ∃ t, exec (.suspendComplete i pass) s = .next t ∧
      KeepsAllBut [.media, .audit, .link] s t ∧ Tells s t ∧
      Settles t (s.media.set i (if pass then { c with op := none, erase := some { e with cond := .suspended } }
        else { c with op := some (.erase e.zone), erase := some { e with cond := .running, failed := true } })) s.audit) ∧
    (∀ e, c.op = some .resume → c.erase = some e → pass = false → ∃ t, exec (.resumeComplete i pass) s = .next t ∧
      KeepsAllBut [.media, .audit, .link] s t ∧ Tells s t ∧
      Settles t (s.media.set i ({ c.setZone e.zone { c.zone e.zone with state := .retired, owed := true } with
        op := none, erase := none })) s.audit) ∧
    ∀ e, c.op = some .resume → c.erase = some e → pass = true → ∃ t, exec (.resumeComplete i pass) s = .next t ∧
      KeepsAllBut [.media, .audit, .link] s t ∧ Tells s t ∧
      Settles t (s.media.set i
        (if (c.readQ ≠ [] ∨ c.auditQ ≠ []) ∧ e.count < 8 ∧ e.failed = false then
          { c with op := some .suspend, erase := some { e with cond := .suspending, count := e.count + 1 } }
        else { c with op := some (.erase e.zone), erase := some { e with cond := .running } })) s.audit

/-- A page READ completes. A SEG_READ keeps what each of its pages brought; its last page forms the delayed reply: GONE where the item has
been disposed of, else OFFLINE or MEDIA_ERROR where a page ended so, else the bytes asked for (R70). A SEG_VERIFY takes each page into its
digest and presents the read of its next page, or waits where the READ queue is full; its last page gives MATCH or MISMATCH with the
digest, a failed page MEDIA_ERROR with its index (R72, R164). An AUDIT_READ's page gives its records (R187); a read that nobody waits for
is discarded (R164). A verify that waits queues its read when a place of the READ queue frees (R72). The module is idle after the READ,
and takes the next work of its channel at the end of the event, behind the read that a verify has then presented (R166, R169). Field
widths that section 10.6 does not give are log entry 13's, and which waiting verify goes first log entry 21's; the number of a SEG_READ in
flight and the list of waiting verifies are the model's, log entry 25. That the first page completed after a disposal ends a verify with
GONE whatever it brought, and OFFLINE for a verify that presents a read to an OFFLINE channel, are log entry 27; the completion is that of
the operation in flight, log entry 43. -/
def Obligations.ReadOutcome : Prop :=
  (∀ (s : State) (i : ChanNo) (res : Option (List Byte)) (r : PageRead), s.taking = true → (s.media.get i).op = some (.read r) →
    ∃ t, exec (.readComplete i res) s = .next t ∧ KeepsAllBut [.segs, .media, .audit, .link] s t ∧
    ((∀ p, r.who ≠ .verify p) → Settles t (s.media.set i { s.media.get i with op := none }) s.audit) ∧
    (r.who = .none → Tells s t ∧ t.segs = s.segs) ∧
    (∀ q n parts, r.who = .segRead q.id n → s.segs.reads.find? (fun x => x.id == q.id) = some q →
      parts = q.parts.set n (match res with | some bs => .passed bs | none => .failed) →
      (.pending ∈ parts → Tells s t ∧ t.segs = { s.segs with
        reads := s.segs.reads.map (fun x => if x.id == q.id then { q with parts } else x) }) ∧
      (.pending ∉ parts → t.segs = { s.segs with reads := s.segs.reads.filter (fun x => x.id != q.id) } ∧
        (s.index.isGone q.item = true → Replied s t q.tag 0x08 .gone []) ∧
        (s.index.isGone q.item = false →
          (.offline ∈ parts → Replied s t q.tag 0x08 .offline []) ∧
          (.offline ∉ parts → .failed ∈ parts → Replied s t q.tag 0x08 .mediaError []) ∧
          ∀ bss : List (List Byte), parts = bss.map .passed →
            Replied s t q.tag 0x08 .ok (((bss.flatten.drop q.skip).take q.count).map (fun b => Fld.u8 b.toNat))))) ∧
    (∀ v, r.who = .verify v.place → s.segs.verifies.find? (fun x => x.place == v.place) = some v →
      (s.index.isGone v.item = true → Replied s t v.tag 0x09 .gone []) ∧
      (s.index.isGone v.item = false → res = none →
        Replied s t v.tag 0x09 .mediaError [Fld.u16 (v.loc.first + v.next)]) ∧
      (s.index.isGone v.item = true ∨ res = none ∨ v.next + 1 = v.loc.count ∨ (s.media.get v.loc.chan).state = .offline →
        t.segs = { s.segs with verifies := s.segs.verifies.filter (fun x => x.place != v.place)
                               verifyWait := s.segs.verifyWait.filter (fun n => n != v.place) } ∧
        Settles t (s.media.set i { s.media.get i with op := none }) s.audit) ∧
      ∀ bs sha, s.index.isGone v.item = false → res = some bs →
        sha = v.sha.update (bs.take (min 16384 (v.length - v.next * 16384))) →
        (v.next + 1 = v.loc.count →
          Replied s t v.tag 0x09 (if sha.finish = v.digest then .matched else .mismatch) [Fld.digest sha.finish]) ∧
        (v.next + 1 ≠ v.loc.count →
          ((s.media.get v.loc.chan).state = .offline → Replied s t v.tag 0x09 .offline []) ∧
          ∀ m, m = s.media.set i { s.media.get i with op := none } → (s.media.get v.loc.chan).state ≠ .offline →
            Tells s t ∧
            { v with sha, next := v.next + 1, waiting := decide ((s.media.get v.loc.chan).readRoom = 0) } ∈ t.segs.verifies ∧
            ((s.media.get v.loc.chan).readRoom = 0 →
              t.segs.verifyWait = s.segs.verifyWait ++ [v.place] ∧ Settles t m s.audit) ∧
            (1 ≤ (s.media.get v.loc.chan).readRoom → v.place ∉ t.segs.verifyWait ∧
              Settles t (m.set v.loc.chan ((m.get v.loc.chan).pushRead
                { zone := v.loc.zone, page := v.loc.first + v.next + 1, who := .verify v.place })) s.audit))) ∧
    ∀ tag first count pf pc, r.who = .audit tag first count pf pc → t.segs = s.segs ∧
      (res = none → Replied s t tag 0x24 .mediaError []) ∧
      ∀ bs, res = some bs → Replied s t tag 0x24 .ok
        ([Fld.u16 (min count (pf + pc - first)), Fld.yes true] ++
          ((bs.drop ((first - pf) * 256)).take (min count (pf + pc - first) * 256)).map (fun b => Fld.u8 b.toNat))) ∧
  ∀ (s : State) (i : ChanNo) (v : Verify), s.taking = true → s.waitingVerify i = some v → v.loc.chan = i →
    ((s.media.get i).state = .offline → ∃ t, exec (.verifyReadQueued i) s = .next t ∧
      KeepsAllBut [.segs, .media, .audit, .link] s t ∧ Replied s t v.tag 0x09 .offline [] ∧
      t.segs = { s.segs with verifies := s.segs.verifies.filter (fun x => x.place != v.place)
                             verifyWait := s.segs.verifyWait.filter (fun n => n != v.place) } ∧ Settles t s.media s.audit) ∧
    ((s.media.get i).state ≠ .offline →
      ((s.media.get i).readRoom = 0 → exec (.verifyReadQueued i) s = .next s) ∧
      (1 ≤ (s.media.get i).readRoom → ∃ t, exec (.verifyReadQueued i) s = .next t ∧
        KeepsAllBut [.segs, .media, .audit, .link] s t ∧ Tells s t ∧
        t.segs.verifyWait = s.segs.verifyWait.filter (fun n => n != v.place) ∧
        Settles t (s.media.set i ((s.media.get i).pushRead
          { zone := v.loc.zone, page := v.loc.first + v.next, who := .verify v.place })) s.audit))

/-- An operation of a module times out, or a module asked after start-up does not answer: its channel becomes OFFLINE with its mark
FENCED, no operation in flight, no reads queued and no erase in progress, and CHANNEL_OFFLINE raised where it was not OFFLINE already
(R173, R178 (1)). Where it was IN_SERVICE the steps (1) to (4) of R171 are done with the cause TIMEOUT. The read in flight and every
queued read is answered OFFLINE: an AUDIT_READ, a SEG_VERIFY, and a SEG_READ all of whose outstanding pages are among them, these two
GONE where their item has been disposed of: a SEG_READ by R70, a SEG_VERIFY by log entry 27 (DEDUCED: R72 does not order its ends (4)
and (5) there). An erase in progress is abandoned, its zone at the head of the RECLAIM queue. An answer leaves the module idle. That the
notice is not raised again on a channel that is OFFLINE already is log entry 22, and that a timeout with no operation in flight changes
nothing log entry 6. That a timeout and a completion are those of the operation in flight is log entry 43. Timeouts in start-up are not
stated here. -/
def Obligations.TimeoutOutcome : Prop :=
  ∀ (s : State) (i : ChanNo) (c : Channel), s.taking = true → c = s.media.get i →
    (c.op = none → exec (.operationTimeout i) s = .next s) ∧
    (∀ cmd reads pages, (cmd = .operationTimeout i ∧ c.op.isSome = true) ∨ (cmd = .identifyComplete i false ∧ c.op = some .identify) →
      reads = (match c.op with | some (.read r) => r :: c.readQ | _ => c.readQ) →
      pages = (match c.op with | some (.programAudit _ _ p true) => p :: c.auditQ | _ => c.auditQ) →
      ∃ t, exec cmd s = .next t ∧ KeepsAllBut uploadBlocks s t ∧ (t.media.get i).state = .offline ∧
        (c.state = .inService ∨ c.markFenced = true → (t.media.get i).markFenced = true) ∧
        (t.media.get i).op = none ∧ (t.media.get i).readQ = [] ∧ (t.media.get i).erase = none ∧
        (c.state ≠ .inService → (t.media.get i).fenceOwed = c.fenceOwed) ∧
        (ZonesInv s → c.state = .inService →
          LeftService { s with media := s.media.set i { c with auditQ := pages } } t i .timeout .offline) ∧
        (c.state ≠ .offline → t.link.flags.getLsbD 5 = true) ∧
        (∃ more, (t.media.get i).reclaimQ = (match c.erase with | some e => e.zone :: c.reclaimQ | none => c.reclaimQ) ++ more) ∧
        ∀ r ∈ reads,
          (∀ tag first count pf pc, r.who = .audit tag first count pf pc → replyFrame tag 0x24 .offline [] ∈ t.link.tx) ∧
          (∀ v, r.who = .verify v.place → s.segs.verifies.find? (fun x => x.place == v.place) = some v →
            replyFrame v.tag 0x09 (if s.index.isGone v.item then .gone else .offline) [] ∈ t.link.tx ∧
            ∀ x ∈ t.segs.verifies, x.place ≠ v.place) ∧
          ∀ q n, r.who = .segRead q.id n → s.segs.reads.find? (fun x => x.id == q.id) = some q → q.parts[n]? = some .pending →
            (∀ k, q.parts[k]? = some .pending → ∃ x ∈ reads, x.who = .segRead q.id k) →
            replyFrame q.tag 0x08 (if s.index.isGone q.item then .gone else .offline) [] ∈ t.link.tx ∧
            ∀ x ∈ t.segs.reads, x.id ≠ q.id) ∧
    (c.op = some .identify → ∃ t, exec (.identifyComplete i true) s = .next t ∧
      KeepsAllBut [.media, .audit, .link] s t ∧ Tells s t ∧
      Settles t (s.media.set i { c with op := none }) s.audit)

/-- CHANNEL_PROBE and what follows it: its refusals and its place (R175); the waiting probe takes the idle module with the ERASE of a
used-up probe zone, whose PASS sets the write point to 0, then the PROGRAM of its next page, then its READ; a FAIL of any of them ends it
with MEDIA_ERROR, a page read back that differs with MISMATCH, either making an OFFLINE channel FENCED; a timeout ends a probe that is not
waiting with OFFLINE; a page that matches waits for the restoration, and the restoration puts the channel IN_SERVICE with one
CHANNEL_RESTORED record and the reply MATCH, its arbiter beginning a new round (R176). Each of the 16,384 bytes of the test page is the
remainder on division by 256 of its position, the page index and 64 times the channel number together (R175 (2)). That the new round has
the INGEST credit 1 while F, the restored channel's zones counted, is below SPACE_THROTTLE is log entry 18. The completion is that of the
operation in flight (log entry 43). -/
def Obligations.ProbeOutcome : Prop :=
  (∀ (i : ChanNo) (n : Nat), (probePage i n).length = 16384 ∧
    ∀ j, j < 16384 → ((probePage i n)[j]?).map (·.toNat) = some ((j + n + 64 * i.val) % 256)) ∧
  ∀ (s : State) (i : ChanNo) (tag : Byte) (c : Channel), s.taking = true → c = s.media.get i →
    (∀ n, 3 < n → exec (.channelProbe tag (.fields n)) s = .next (s.emit (replyFrame tag 0x23 .badField []))) ∧
    (c.state = .inService →
      exec (.channelProbe tag (.fields i.val)) s = .next (s.emit (replyFrame tag 0x23 .badContext []))) ∧
    (∀ p, c.state ≠ .inService → c.probe = some p →
      exec (.channelProbe tag (.fields i.val)) s = .next (s.emit (replyFrame tag 0x23 .busy []))) ∧
    (c.state ≠ .inService → c.probe = none → exec (.channelProbe tag (.fields i.val)) s =
      .next { s with media := s.media.set i { c with probe := some { tag, stage := .waiting } } }) ∧
    (∀ pt, c.probe = some { tag := pt, stage := .waiting } →
      (c.op.isSome = true ∨ c.erase.isSome = true → exec (.probeStart i) s = .next s) ∧
      (c.op = none → c.erase = none → exec (.probeStart i) s = .next { s with media := (s.media.set i
        (if c.probeWp = 4096 then { c with probe := some { tag := pt, stage := .inFlight }, op := some .probeErase }
          else { c with probe := some { tag := pt, stage := .inFlight }, op := some (.probeProgram c.probeWp), probeWp := c.probeWp + 1 })) })) ∧
    (∀ pt, c.probe = some { tag := pt, stage := .inFlight } →
      (c.op = some .probeErase → ∃ t, exec (.eraseComplete i true) s = .next t ∧ KeepsAllBut [.media, .audit, .link] s t ∧
        Tells s t ∧ Settles t (s.media.set i { c with op := some (.probeProgram 0), probeWp := 1 }) s.audit) ∧
      (∀ n, c.op = some (.probeProgram n) → ∃ t, exec (.programComplete i true) s = .next t ∧
        KeepsAllBut [.media, .audit, .link] s t ∧ Tells s t ∧
        Settles t (s.media.set i { c with op := some (.probeRead n) }) s.audit) ∧
      ∀ cmd n, (cmd = .eraseComplete i false ∧ c.op = some .probeErase) ∨
          (cmd = .programComplete i false ∧ c.op = some (.probeProgram n)) ∨
          (cmd = .readComplete i none ∧ c.op = some (.probeRead n)) →
        ∃ t, exec cmd s = .next t ∧ KeepsAllBut [.media, .audit, .link] s t ∧ Replied s t pt 0x23 .mediaError [] ∧
          Settles t (s.media.set i { c with op := none, probe := none
                                            state := if c.state = .offline then .fenced else c.state }) s.audit) ∧
    (∀ p, c.probe = some p → c.op.isSome = true → ∃ t, exec (.operationTimeout i) s = .next t ∧ (t.media.get i).state = .offline ∧
      (p.stage = .waiting → (t.media.get i).probe = some p) ∧
      (p.stage ≠ .waiting → (t.media.get i).probe = none ∧ replyFrame p.tag 0x23 .offline [] ∈ t.link.tx)) ∧
    (∀ pt n bs, c.probe = some { tag := pt, stage := .inFlight } → c.op = some (.probeRead n) →
      ∃ t, exec (.readComplete i (some bs)) s = .next t ∧ KeepsAllBut [.media, .audit, .link] s t ∧
        (t.media.get i).state = (if c.state = .offline then .fenced else c.state) ∧
        ∀ d : Channel, d = { c with op := none, state := if c.state = .offline then .fenced else c.state } →
          (bs = probePage i n → Tells s t ∧ (t.media.get i).probe = some { tag := pt, stage := .restoring } ∧
            Settles t (s.media.set i { d with probe := some { tag := pt, stage := .restoring } }) s.audit) ∧
          (bs ≠ probePage i n → Replied s t pt 0x23 .mismatch [] ∧ (t.media.get i).probe = none ∧
            Settles t (s.media.set i { d with probe := none }) s.audit)) ∧
    ∀ pt, c.probe = some { tag := pt, stage := .restoring } →
      (c.fenceOwed ≠ none ∨ s.slotFree = false → exec (.channelRestore i) s = .next s) ∧
      (c.fenceOwed = none → s.slotFree = true → ∃ t, exec (.channelRestore i) s = .next t ∧ KeepsAllBut recordBlocks s t ∧
        Replied s t pt 0x23 .matched [] ∧ Appended s t .channelRestored [Fld.u8 i.val] ∧
        (t.media.get i).state = .inService ∧ (t.media.get i).markFenced = false ∧ (t.media.get i).fails = 0 ∧
        (t.media.get i).probe = none ∧
        ∀ (d : Channel) (f : Nat), d = { c with state := .inService, markFenced := false, fails := 0, probe := none } →
          f = (s.media.set i d).freeZones →
          Settles t (s.media.set i { d with credits :=
              { read := s.settings.readWeight, reclaim := s.settings.reclaimWeight
                ingest := if f < s.settings.throttle then 1 else s.settings.ingestWeight } })
            (s.audit.append s.clock.counter s.timer .channelRestored [Fld.u8 i.val]))

/-! ### Chapter 9 -/

/-- AUDIT_READ: BAD_FIELD, then NOT_FOUND, then records from the buffer at once, or the read of the page that the page map names,
refused with OFFLINE or BUSY and otherwise queued with its reply to follow (R187). Field widths that section 10.6 does not give
are log entry 13's. -/
def Obligations.AuditReadOutcome : Prop :=
  (∀ (a : Audit) (n : Nat), (a.mapped n = none ↔ ∀ e ∈ a.map, n < e.first ∨ e.first + e.count ≤ n) ∧
    ∀ e, a.mapped n = some e → e ∈ a.map ∧ e.first ≤ n ∧ n < e.first + e.count) ∧
  ∀ (tag : Byte) (q : Window) (s : State), s.taking = true →
    (q.count = 0 ∨ 16 < q.count → exec (.auditRead tag (.fields q)) s = .next (s.emit (replyFrame tag 0x24 .badField []))) ∧
    (1 ≤ q.count → q.count ≤ 16 →
      (s.audit.counter ≤ q.first →
        exec (.auditRead tag (.fields q)) s = .next (s.emit (replyFrame tag 0x24 .notFound []))) ∧
      (q.first < s.audit.counter →
        (∀ rs, (∃ r ∈ s.audit.buffer, r.seq = q.first) →
          rs = (s.audit.buffer.filter (fun r => decide (q.first ≤ r.seq))).take q.count →
          exec (.auditRead tag (.fields q)) s = .next (s.emit (replyFrame tag 0x24 .ok
            ([Fld.u16 rs.length, Fld.yes false] ++ ((rs.map Record.bytes).flatten).map (fun b => Fld.u8 b.toNat))))) ∧
        ∀ e, (∀ r ∈ s.audit.buffer, r.seq ≠ q.first) → s.audit.mapped q.first = some e →
          ((s.media.get e.chan).state = .offline →
            exec (.auditRead tag (.fields q)) s = .next (s.emit (replyFrame tag 0x24 .offline []))) ∧
          ((s.media.get e.chan).state ≠ .offline → (s.media.get e.chan).readRoom = 0 →
            exec (.auditRead tag (.fields q)) s = .next (s.emit (replyFrame tag 0x24 .busy []))) ∧
          ((s.media.get e.chan).state ≠ .offline → 1 ≤ (s.media.get e.chan).readRoom →
            ∃ t, exec (.auditRead tag (.fields q)) s = .next t ∧ KeepsAllBut [.media, .audit, .link] s t ∧ Tells s t ∧
              Settles t (s.media.set e.chan ((s.media.get e.chan).pushRead
                { zone := e.zone, page := e.page, who := .audit tag q.first q.count e.first e.count })) s.audit)))

/-- The records that wait for a slot: the first owed fence, or where none is owed the first owed retirement, is appended and its flag
cleared (R174), the zones whose flag is set going in zone order; an owed START_UP record is appended (R189); without a slot each waits,
and where nothing is owed nothing happens (log entry 6). At the end of the 5-second wait of the oldest undrained record the drain settles
with the timers at that end or later, so that it presents every page that is due (R184): that the event sets the timers so is log entry 7,
and the moment of append a record keeps log entry 25. A slot is free while the buffer holds fewer than 2,048 records (R181). A record
takes the sequence counter, its archive second, its kind and subject, 0x00 bytes behind them, and as its chain value the first 8 bytes of
SHA-256 over the stored chain value and its first 248 bytes (R179, TABLE 10-12). -/
def Obligations.OwedRecords : Prop :=
  (∀ s : State, s.slotFree = true ↔ s.audit.buffer.length < 2048) ∧
  (∀ c : Channel, Table.sorted c.zones = true → c.owedZones.Pairwise (· < ·) ∧ ∀ z, z ∈ c.owedZones ↔ (c.zone z).owed = true) ∧
  (∀ (a : Audit) (second since : Nat) (kind : AuditKind) (subject : List Field) (r : Record),
    r = a.nextRecord second since kind subject →
    r.seq = a.counter ∧ r.second = second ∧ r.since = since ∧ r.kind = kind ∧ r.subject = subject ∧ r.bytes.length = 256 ∧
    r.bytes.drop 248 = (digestBytes (sha256 (beBytes 8 a.chain.toNat ++ r.bytes.take 248))).take 8 ∧
    r.bytes.drop 248 = beBytes 8 r.chain.toNat ∧
    r.bytes.take 15 = beBytes 6 a.counter ++ beBytes 8 second ++ beBytes 1 kind.code ∧
    ∀ n, n < 233 → r.bytes[15 + n]? = some (((fieldBytes subject)[n]?).getD 0)) ∧
  ∀ s : State, s.taking = true →
    (s.slotFree = false → exec .owedMediaRecord s = .next s ∧ exec .startUpRecord s = .next s) ∧
    (s.slotFree = true →
      (∀ i k, (s.media.get i).fenceOwed = some k → (∀ j, j < i → (s.media.get j).fenceOwed = none) →
        ∃ t, exec .owedMediaRecord s = .next t ∧ KeepsAllBut recordBlocks s t ∧ Tells s t ∧
          Appended s t .channelFenced [Fld.u8 i.val, Fld.u8 (match k with | .programFails => 0 | .timeout => 1)] ∧
          (t.media.get i).fenceOwed = none ∧ (∀ j, j ≠ i → (t.media.get j).fenceOwed = (s.media.get j).fenceOwed) ∧
          Settles t (s.media.set i { s.media.get i with fenceOwed := none }) (s.audit.append s.clock.counter s.timer .channelFenced
            [Fld.u8 i.val, Fld.u8 (match k with | .programFails => 0 | .timeout => 1)])) ∧
      (∀ i z zs, (∀ j, (s.media.get j).fenceOwed = none) → (s.media.get i).owedZones = z :: zs →
        (∀ j, j < i → (s.media.get j).owedZones = []) →
        ∃ t, exec .owedMediaRecord s = .next t ∧ KeepsAllBut recordBlocks s t ∧ Tells s t ∧
          Appended s t .zoneRetired [Fld.u8 i.val, Fld.u16 z] ∧ ((t.media.get i).zone z).owed = false ∧
          Settles t (s.media.set i ((s.media.get i).setZone z { (s.media.get i).zone z with owed := false }))
            (s.audit.append s.clock.counter s.timer .zoneRetired [Fld.u8 i.val, Fld.u16 z])) ∧
      (∀ o, s.audit.startOwed = some o → ∃ t, exec .startUpRecord s = .next t ∧ KeepsAllBut recordBlocks s t ∧ Tells s t ∧
        Appended s t .startUp o.fields ∧ t.audit.startOwed = none ∧
        Settles t s.media ({ s.audit with startOwed := none }.append s.clock.counter s.timer .startUp o.fields))) ∧
    (s.audit.startOwed = none → exec .startUpRecord s = .next s) ∧
    ((∀ j, (s.media.get j).fenceOwed = none ∧ (s.media.get j).owedZones = []) → exec .owedMediaRecord s = .next s) ∧
    (s.store.undrained = 0 → exec .auditPageWait s = .next s) ∧
    ∀ r, s.audit.buffer[s.audit.buffer.length - s.store.undrained]? = some r →
      ∃ t, exec .auditPageWait s = .next t ∧ KeepsAllBut [.timer, .media, .audit, .link] s t ∧ Tells s t ∧
        t.timer = max s.timer (r.since + 5) ∧ Settles t s.media s.audit

/-- The end of an event and the drain of the audit buffer. Settling presents pages, lets the channels 0 to 3 take work in this order,
and does both once more (log entry 40); after it no channel's module takes anything more, where every weight is at least 1 as the
settings' ranges have it (R166, R198), and, where the last taking of work handed no page back, no page is left that the drain would
present (R184). The outstanding pages are those in flight that are still waited for and the AUDIT queues, and a record of the buffer is
undrained where no page outstanding or held holds it (section 9.3). The drain channel stays while a page is outstanding; with none it is
the lowest IN_SERVICE channel with an AUDIT_OPEN or a BLANK zone, none where no channel is so, and a channel other than the last used
closes the former one's AUDIT_OPEN zone (R183). While its queue holds fewer than 4 pages it is presented held pages first, then pages of
the oldest undrained records: 64 of them, or all where fewer wait and the oldest has waited 5 seconds; it goes on until nothing more is
accepted or due (R184). That a page in flight keeps its place of the queue is log entry 8; the moment of append, from which the 5
seconds run, log entry 25. -/
def Obligations.AuditDrain : Prop :=
  ∀ (s : Store) (now : Nat),
    s.present now = (((s.chooseDrain.presentOne now).presentOne now).presentOne now).presentOne now ∧
    (∀ (set : Settings) (u v : Store),
      u = ((((s.present now).dispatch set 0).dispatch set 1).dispatch set 2).dispatch set 3 →
      v = ((((u.present now).dispatch set 0).dispatch set 1).dispatch set 2).dispatch set 3 →
      s.settle set now = v ∧
      (1 ≤ set.readWeight → 1 ≤ set.ingestWeight → 1 ≤ set.reclaimWeight → ∀ i, v.dispatch set i = v) ∧
      (v.audit = (u.present now).audit → v.presentOne now = v)) ∧
    (∀ i c, c = s.media.get i →
      (∀ z n p live, c.op = some (.programAudit z n p live) → c.auditPages = if live then p :: c.auditQ else c.auditQ) ∧
      ((∀ z n p live, c.op ≠ some (.programAudit z n p live)) → c.auditPages = c.auditQ)) ∧
    s.media.outstanding =
      (s.media.get 0).auditPages ++ (s.media.get 1).auditPages ++ (s.media.get 2).auditPages ++ (s.media.get 3).auditPages ∧
    s.undrained = s.audit.buffer.length - ((s.media.outstanding ++ s.audit.held).map (·.count)).sum ∧
    (s.media.outstanding ≠ [] → s.chooseDrain = s) ∧
    (∀ can : ChanNo → Prop, (∀ i, can i ↔ (s.media.get i).state = .inService ∧
        ((∃ z, (s.media.get i).zoneIn .auditOpen = some z) ∨ ∃ z, (s.media.get i).lowestBlank = some z)) →
      s.media.outstanding = [] →
      ((∀ i, ¬can i) → s.media.drainChoice = none ∧ s.chooseDrain = { s with audit := { s.audit with drain := none } }) ∧
      ∀ i, can i → (∀ j, j < i → ¬can j) →
        s.media.drainChoice = some i ∧ s.chooseDrain.audit = { s.audit with drain := some i, drainLast := i } ∧
        (i = s.audit.drainLast ∨ (s.media.get s.audit.drainLast).zoneIn .auditOpen = none → s.chooseDrain.media = s.media) ∧
        ∀ z c, i ≠ s.audit.drainLast → c = s.media.get s.audit.drainLast → c.zoneIn .auditOpen = some z →
          s.chooseDrain.media = s.media.set s.audit.drainLast (c.setZone z { c.zone z with state := .auditClosed })) ∧
    (s.audit.drain = none → s.presentOne now = s) ∧
    (∀ i c, s.audit.drain = some i → c = s.media.get i →
      (c.state ≠ .inService ∨ 4 ≤ c.auditPages.length → s.presentOne now = s) ∧
      (c.state = .inService → c.auditPages.length < 4 →
        (∀ p ps, s.audit.held = p :: ps →
          s.presentOne now = { media := s.media.set i (c.pushAudit p), audit := { s.audit with held := ps } }) ∧
        ∀ n due, s.audit.held = [] → n = s.undrained →
          (due ↔ 64 ≤ n ∨ ∃ r, s.audit.buffer[s.audit.buffer.length - n]? = some r ∧ r.since + 5 ≤ now) →
          (due → s.presentOne now =
            { s with media := s.media.set i (c.pushAudit { first := s.audit.counter - n, count := min 64 n }) }) ∧
          (¬due → s.presentOne now = s))) ∧
    (s.present now).presentOne now = s.present now

/-! ### What every step keeps -/

/-- No step moves the HWM back, and every step keeps the counter at or above the HWM and at or below the last archive second: the
clock hands out no archive second earlier than one it has handed out (R3). -/
def Obligations.ClockNeverTurnsBack : Prop :=
  ∀ s t : State, ClockInv s → step s = .next t → ClockInv t ∧ s.clock.hwm ≤ t.clock.hwm

/-- Every step keeps the index whole: item numbers without a gap, and each live item in the one structure of its state, once (R97,
R101, R141, R145). -/
def Obligations.PlacesStayTrue : Prop := ∀ s t : State, PlacesInv s → step s = .next t → PlacesInv t

/-- Every step keeps the counts true: hold counts the number of matters in the mask, and no FREE matter in a mask (R129), in-use counts
the number of live items that carry the class (R80); and the custodian table one entry for a key, its mask not empty (R122). -/
def Obligations.CountsStayTrue : Prop :=
  (∀ s t : State, HoldCountInv s → step s = .next t → HoldCountInv t) ∧
    (∀ s t : State, InUseInv s → step s = .next t → InUseInv t) ∧
    (∀ s t : State, MasksInv s → step s = .next t → MasksInv t) ∧
    ∀ s t : State, CustodiansInv s → step s = .next t → CustodiansInv t

/-- Every step keeps the laws of stored content: the refs of an entry equal the slots of live items that name it, its claims the READY
slots (R64, R65, the fifth law); an INBOUND entry has one owner, an uploading slot, and waiters that wait on it (R58); a zone's live
count equals the pages of the entries placed in it (R158, the seventh law); and every RECLAIMING zone waits to be erased or is being
erased (R158, R165). -/
def Obligations.StorageLawsHold : Prop := ∀ s t : State, StorageInv s → step s = .next t → StorageInv t

/-- Every step keeps at most 2,048 records in the buffer, their sequence numbers rising below the counter (R180, R181); the sequence
counter and the page map only grow, and a record leaves the buffer only into a page map entry that names its sequence number
(R185, R186). A record's moment of append, which start-up sets anew, is no part of it (R190 (2), log entry 25). -/
def Obligations.TrailIsKept : Prop :=
  (∀ s t : State, BufferInv s → step s = .next t → BufferInv t) ∧
  ∀ s t : State, step s = .next t →
    s.audit.counter ≤ t.audit.counter ∧ (∃ more, t.audit.map = s.audit.map ++ more) ∧
      ∀ r ∈ s.audit.buffer, (∃ m, { r with since := m } ∈ t.audit.buffer) ∨
        ∃ e ∈ t.audit.map, e.first ≤ r.seq ∧ r.seq < e.first + e.count

/-- Every step keeps each setting in its range with SPACE_THROTTLE above SPACE_RESERVE (R198), the mark of a channel FENCED exactly
while it is not IN_SERVICE (R155), zones that hold no segment without live pages (R158), and every keyed table in canonical
order. -/
def Obligations.ConfigurationStaysLegal : Prop :=
  (∀ s t : State, SettingsInv s → step s = .next t → SettingsInv t) ∧
  (∀ s t : State, MarksInv s → step s = .next t → MarksInv t) ∧
  (∀ s t : State, ZonesInv s → step s = .next t → ZonesInv t) ∧
  ∀ s t : State, TablesInv s → step s = .next t → TablesInv t

/-- Content is disposed of by a disposal event alone, at the head of the disposal list, with its expiry not later than today, no
ACTIVE matter covering it, the clock not UNSET and an audit slot free (R149, R150); where every item stands in the place of its
state, its expiry is then a day, today or earlier. A tombstone never changes (R98); no step moves the expiry of an item that stays live
to an earlier value (R93). -/
def Obligations.NothingIsLostEarly : Prop :=
  ∀ s t : State, NumbersInv s → step s = .next t → ∀ n r, s.index.item n = some r →
    ∃ r', t.index.item n = some r' ∧
      (∀ sec, r.body = .disposed sec → r' = r) ∧
      (∀ l, r.body = .live l → Expiry.notEarlier r.expiry r'.expiry) ∧
      ∀ l sec, r.body = .live l → r'.body = .disposed sec →
        s.pending.head? = some .disposalEvent ∧ s.dispo.list.head? = some n ∧ sec = s.clock.counter ∧
          r.expiry.laterThan s.today = false ∧ (PlacesInv s → ∃ d, r.expiry = .day d ∧ d ≤ s.clock.counter / 86400) ∧
          s.clock.state ≠ .unset ∧ s.slotFree = true ∧
          ∀ m, m ≤ 63 → s.hold.covers m r.domain l.sentDay l.parties = false

/-- In COMPLIANT mode no step leaves the mode while the index holds an item, shortens or clears a LOCKED class, makes an ACTIVE domain
UNUSED or raises a domain's backdate limit, raises CLOCK_ALLOWANCE, sets DISPO_MODE to AUTO or lowers the grace, and no CLOCK_SET takes
the counter past the HWM by more than 31 days (R201, R75, R78, R83, R198, TABLES 1-2 and 10-5). -/
def Obligations.ComplianceHolds : Prop :=
  ∀ s t : State, s.compliant = true → step s = .next t →
    (1 < s.index.next → t.compliant = true) ∧
    (t.compliant = true →
      (∀ c d, (s.policy.cls c).state = .locked d →
        ∃ d', (t.policy.cls c).state = .locked d' ∧ lengthens d d' = true) ∧
      (∀ n, (t.policy.domain n).backdate ≤ (s.policy.domain n).backdate ∧
        ((s.policy.domain n).active = true → (t.policy.domain n).active = true)) ∧
      t.settings.allowance ≤ s.settings.allowance ∧ (s.settings.auto = false → t.settings.auto = false) ∧
      s.settings.grace ≤ t.settings.grace) ∧
    ∀ tag q, s.pending.head? = some (.clockSet tag q) → t.clock.counter ≤ max s.clock.counter (s.clock.hwm + 2678400)

end
end

