-- ==== Sys2Proof/Laws/Frames.lean ====
section
/-! SUPPORT. One frame lemma for each operation on the state: which blocks it may change. -/

namespace Sys2Proof.Machine

/-! ### Frames compose -/

theorem KeepsAllBut.refl (bs : List Block) (s : State) : KeepsAllBut bs s s := by
  intro b _
  cases b <;> rfl

theorem KeepsAllBut.trans {bs : List Block} {s t u : State} (h : KeepsAllBut bs s t) (k : KeepsAllBut bs t u) :
    KeepsAllBut bs s u := by
  intro b hb
  have h1 := h b hb
  have h2 := k b hb
  cases b <;> exact Eq.trans h2 h1

theorem KeepsAllBut.mono {as bs : List Block} {s t : State} (h : KeepsAllBut as s t)
    (hs : (as.all fun b => bs.contains b) = true) : KeepsAllBut bs s t := by
  intro b hb
  refine h b (fun ha => hb ?_)
  have := List.all_eq_true.mp hs b ha
  simpa using this

theorem KeepsAllBut.ite {bs : List Block} {s t u : State} {p : Prop} [Decidable p] (h : KeepsAllBut bs s t)
    (k : KeepsAllBut bs s u) : KeepsAllBut bs s (if p then t else u) := by
  split
  · exact h
  · exact k

theorem KeepsAllBut.foldl {α : Type} {bs : List Block} (f : State → α → State) (hf : ∀ s a, KeepsAllBut bs s (f s a)) :
    ∀ (as : List α) (s : State), KeepsAllBut bs s (as.foldl f s)
  | [], s => .refl bs s
  | a :: as, s => (hf s a).trans (KeepsAllBut.foldl f hf as (f s a))

/-! ### Updates of one block -/

theorem keeps_clock (s : State) (v : Clock) : KeepsAllBut [.clock] s { s with clock := v } := by
  intro b hb; cases b <;> first | rfl | exact (hb (by decide)).elim

theorem keeps_ingest (s : State) (v : Ingest) : KeepsAllBut [.ingest] s { s with ingest := v } := by
  intro b hb; cases b <;> first | rfl | exact (hb (by decide)).elim

theorem keeps_segs (s : State) (v : Segs) : KeepsAllBut [.segs] s { s with segs := v } := by
  intro b hb; cases b <;> first | rfl | exact (hb (by decide)).elim

theorem keeps_index (s : State) (v : Index) : KeepsAllBut [.index] s { s with index := v } := by
  intro b hb; cases b <;> first | rfl | exact (hb (by decide)).elim

theorem keeps_dispo (s : State) (v : Dispo) : KeepsAllBut [.dispo] s { s with dispo := v } := by
  intro b hb; cases b <;> first | rfl | exact (hb (by decide)).elim

theorem keeps_media (s : State) (v : Media) : KeepsAllBut [.media] s { s with media := v } := by
  intro b hb; cases b <;> first | rfl | exact (hb (by decide)).elim

theorem keeps_audit (s : State) (v : Audit) : KeepsAllBut [.audit] s { s with audit := v } := by
  intro b hb; cases b <;> first | rfl | exact (hb (by decide)).elim

theorem keeps_link (s : State) (v : Link) : KeepsAllBut [.link] s { s with link := v } := by
  intro b hb; cases b <;> first | rfl | exact (hb (by decide)).elim

theorem keeps_index_dispo (s : State) (v : Index) (d : Dispo) : KeepsAllBut [.index, .dispo] s { s with index := v, dispo := d } := by
  intro b hb; cases b <;> first | rfl | exact (hb (by decide)).elim

theorem keeps_segs_media (s : State) (v : Segs) (m : Media) : KeepsAllBut [.segs, .media] s { s with segs := v, media := m } := by
  intro b hb; cases b <;> first | rfl | exact (hb (by decide)).elim

/-! ### Frames and notices -/

theorem State.raise_frame (s : State) (n : Notice) : KeepsAllBut [.link] s (s.raise n) := keeps_link s _

theorem State.raiseIf_frame (s : State) (c : Bool) (n : Notice) : KeepsAllBut [.link] s (s.raiseIf c n) :=
  (s.raise_frame n).ite (.refl _ s)

theorem State.emit_frame (s : State) (f : Frame) : KeepsAllBut [.link] s (s.emit f) := keeps_link s _

theorem State.reply_frame (s : State) (tag : Byte) (code : Nat) (st : Status) (p : List Field) :
    KeepsAllBut [.link] s (s.reply tag code st p) := s.emit_frame _

theorem State.report_frame (s : State) (code : Nat) (p : List Field) : KeepsAllBut [.link] s (s.report code p) := s.emit_frame _

theorem State.answer_frame (s t : State) (tag : Byte) (code : Nat) (st : Status) (p : List Field) {bs : List Block}
    (h : KeepsAllBut bs s t) (hl : bs.contains .link = true) : KeepsAllBut bs s (s.answer tag code st p t) := by
  refine h.trans ((keeps_link t _).mono ?_)
  simpa using hl

/-! ### Media, drain and the end of an event -/

theorem State.withStore_frame (s : State) (t : Store) : KeepsAllBut [.media, .audit] s (s.withStore t) := by
  intro b hb; cases b <;> first | rfl | exact (hb (by decide)).elim

theorem State.setChan_frame (s : State) (i : ChanNo) (c : Channel) : KeepsAllBut [.media] s (s.setChan i c) := keeps_media s _

theorem State.noteSpace_frame (s0 s : State) : KeepsAllBut [.link] s (State.noteSpace s0 s) :=
  (s.raiseIf_frame _ _).trans (State.raiseIf_frame _ _ _)

theorem State.closeEvent_frame (s0 s : State) : KeepsAllBut [.media, .audit, .link] s (State.closeEvent s0 s) := by
  unfold State.closeEvent
  split
  · exact ((s.withStore_frame _).mono (by decide)).trans ((State.noteSpace_frame s0 _).mono (by decide))
  · exact (keeps_media s _).mono (by decide)

theorem State.closeEvent_after {bs : List Block} {s0 s t : State} (h : KeepsAllBut bs s t)
    (hb : ([Block.media, .audit, .link].all fun b => bs.contains b) = true) : KeepsAllBut bs s (State.closeEvent s0 t) :=
  h.trans ((State.closeEvent_frame s0 t).mono hb)

theorem State.append_frame (s : State) (kind : AuditKind) (subject : List Field) :
    KeepsAllBut [.clock, .audit, .link] s (s.append kind subject) := by
  unfold State.append
  have h : KeepsAllBut [Block.clock, .audit, .link] s { s with
      audit := s.audit.append s.clock.counter s.timer kind subject
      clock := { s.clock with hwm := s.clock.counter } } := by
    intro b hb; cases b <;> first | rfl | exact (hb (by decide)).elim
  exact h.trans (((State.raiseIf_frame _ _ _).mono (by decide)).trans ((State.raiseIf_frame _ _ _).mono (by decide)))

theorem State.append_after {bs : List Block} {s t : State} (h : KeepsAllBut bs s t) (kind : AuditKind) (subject : List Field)
    (hb : ([Block.clock, .audit, .link].all fun b => bs.contains b) = true) : KeepsAllBut bs s (t.append kind subject) :=
  h.trans ((t.append_frame kind subject).mono hb)

theorem State.accept_frame (s t : State) (tag : Byte) (code : Nat) (st : Status) (p : List Field) (kind : AuditKind)
    (subject : List Field) {bs : List Block} (h : KeepsAllBut bs s t)
    (hb : (recordBlocks.all fun b => bs.contains b) = true) : KeepsAllBut bs s (s.accept tag code st p kind subject t) := by
  have hm : ([Block.media, .audit, .link].all fun b => bs.contains b) = true := by
    simp only [recordBlocks, List.all_cons, List.all_nil, Bool.and_true, Bool.and_eq_true] at hb ⊢
    exact ⟨hb.2.1, hb.2.2.1, hb.2.2.2⟩
  have ha : ([Block.clock, .audit, .link].all fun b => bs.contains b) = true := by
    simp only [recordBlocks, List.all_cons, List.all_nil, Bool.and_true, Bool.and_eq_true] at hb ⊢
    exact ⟨hb.1, hb.2.2.1, hb.2.2.2⟩
  have hl : bs.contains .link = true := by
    simp only [recordBlocks, List.all_cons, List.all_nil, Bool.and_true, Bool.and_eq_true] at hb
    exact hb.2.2.2
  exact State.answer_frame s _ tag code st p (State.closeEvent_after (State.append_after h kind subject ha) hm) hl

/-! ### Contexts, slots and uploads -/

theorem State.retimeAll_frame (s : State) : KeepsAllBut [.ingest] s s.retimeAll := keeps_ingest s _

theorem State.finish_frame (s0 s : State) : KeepsAllBut [.ingest, .media, .audit, .link] s (State.finish s0 s) :=
  (s.retimeAll_frame.mono (by decide)).trans ((State.closeEvent_frame s0 _).mono (by decide))

theorem State.finish_after {bs : List Block} {s0 s t : State} (h : KeepsAllBut bs s t)
    (hb : ([Block.ingest, .media, .audit, .link].all fun b => bs.contains b) = true) :
    KeepsAllBut bs s (State.finish s0 t) := h.trans ((State.finish_frame s0 t).mono hb)

theorem State.touch_frame (s : State) (c : Nat) (o : OpenCtx) : KeepsAllBut [.ingest] s (s.touch c o) := keeps_ingest s _

theorem State.setSlot_frame (s : State) (r : SlotRef) (v : Slot) : KeepsAllBut [.ingest] s (s.setSlot r v) := by
  unfold State.setSlot
  split
  · exact keeps_ingest s _
  · exact .refl _ s

theorem State.emptySlot_frame (s : State) (r : SlotRef) : KeepsAllBut [.ingest] s (s.emptySlot r) := by
  unfold State.emptySlot
  split
  · exact keeps_ingest s _
  · exact .refl _ s

theorem State.joinReady_frame (s : State) (c : Nat) : KeepsAllBut [.ingest] s (s.joinReady c) := by
  unfold State.joinReady
  split
  · split
    · exact keeps_ingest s _
    · exact .refl _ s
  · exact .refl _ s

theorem State.readySlot_frame (s : State) (r : SlotRef) : KeepsAllBut [.ingest, .link] s (s.readySlot r) := by
  unfold State.readySlot
  split
  · split
    · exact ((State.setSlot_frame s _ _).mono (by decide)).trans (((State.joinReady_frame _ _).mono (by decide)).trans
        ((State.report_frame _ _ _).mono (by decide)))
    · exact .refl _ s
  · exact .refl _ s

theorem State.reportFailed_frame (s : State) (r : SlotRef) (a b : Nat) : KeepsAllBut [.link] s (s.reportFailed r a b) := by
  unfold State.reportFailed
  split
  · exact s.report_frame _ _
  · exact .refl _ s

theorem State.startSending_frame (s : State) (r : SlotRef) : KeepsAllBut [.ingest, .link] s (s.startSending r) := by
  unfold State.startSending
  split
  · split
    · exact ((State.setSlot_frame s _ _).mono (by decide)).trans ((State.report_frame _ _ _).mono (by decide))
    · exact .refl _ s
  · exact .refl _ s

theorem State.handover_frame (cause : EndCause) (ref : EntryRef) (e : SegEntry) :
    ∀ (ws : List SlotRef) (s : State), KeepsAllBut [.ingest, .segs, .media, .link] s (State.handover cause ref e ws s)
  | [], s => (keeps_segs s _).mono (by decide)
  | w :: ws, s => by
    unfold State.handover
    split
    · exact ((keeps_segs_media s _ _).mono (by decide)).trans ((State.startSending_frame _ _).mono (by decide))
    · exact ((State.emptySlot_frame s _).mono (by decide)).trans (((State.reportFailed_frame _ _ _ _).mono (by decide)).trans
        (State.handover_frame cause ref e ws _))

theorem State.ownerFailure_frame (s : State) (ref : EntryRef) (cause : EndCause) :
    KeepsAllBut [.ingest, .segs, .media, .link] s (s.ownerFailure ref cause) := by
  unfold State.ownerFailure
  split
  · exact ((keeps_media s _).mono (by decide)).trans (State.handover_frame cause ref _ _ _)
  · exact .refl _ s

theorem State.ownerSuccess_frame (s : State) (ref : EntryRef) :
    KeepsAllBut [.ingest, .segs, .link] s (s.ownerSuccess ref) := by
  unfold State.ownerSuccess
  split
  · exact ((keeps_segs s _).mono (by decide)).trans
      (KeepsAllBut.foldl _ (fun s r => (State.readySlot_frame s r).mono (by decide)) _ _)
  · exact .refl _ s

theorem State.uploadFails_frame (s : State) (i : ChanNo) (u : Upload) :
    KeepsAllBut [.ingest, .segs, .media, .link] s (s.uploadFails i u) := by
  unfold State.uploadFails
  have h := (keeps_media s (s.media.withdraw { chan := i, zone := u.zone, first := u.first, count := u.count })).mono
    (bs := [.ingest, .segs, .media, .link]) (by decide)
  split
  · exact h.trans (((State.emptySlot_frame _ _).mono (by decide)).trans
      (((State.reportFailed_frame _ _ _ _).mono (by decide)).trans (State.ownerFailure_frame _ _ _)))
  · exact h.trans (State.ownerFailure_frame _ _ _)

theorem State.freeIdle_frame (s : State) (ref : EntryRef) : KeepsAllBut [.segs, .media] s (s.freeIdle ref) := by
  unfold State.freeIdle
  split
  · split
    · exact keeps_segs_media s _ _
    · exact .refl _ s
  · exact .refl _ s

theorem State.giveUpWait_frame (c gen : Nat) (s : State) (x : Slot × Nat) : KeepsAllBut [.segs] s (State.giveUpWait c gen s x) := by
  unfold State.giveUpWait
  split
  · exact keeps_segs s _
  · exact .refl _ s

theorem State.giveUpClaim_frame (s : State) (x : Slot × Nat) : KeepsAllBut [.segs, .media] s (State.giveUpClaim s x) := by
  unfold State.giveUpClaim
  split
  · exact ((keeps_segs s _).mono (by decide)).trans (State.freeIdle_frame _ _)
  · exact .refl _ s

theorem State.giveUpUpload_frame (cause : EndCause) (s : State) (x : Slot × Nat) :
    KeepsAllBut [.ingest, .segs, .media, .link] s (State.giveUpUpload cause s x) := by
  unfold State.giveUpUpload
  split
  · simp only []
    split
    · exact ((keeps_media s _).mono (by decide)).trans (State.ownerFailure_frame _ _ _)
    · exact .refl _ s
  · simp only []
    split
    · exact ((keeps_media s _).mono (by decide)).trans (State.ownerFailure_frame _ _ _)
    · exact .refl _ s
  · exact .refl _ s

theorem State.giveUp_frame (s : State) (c : Nat) (o : OpenCtx) (cause : EndCause) :
    KeepsAllBut [.ingest, .segs, .media, .link] s (s.giveUp c o cause) := by
  unfold State.giveUp
  dsimp only
  refine KeepsAllBut.trans ?_ ((keeps_ingest _ _).mono (by decide))
  refine KeepsAllBut.trans ?_ (KeepsAllBut.foldl _ (fun s x => State.giveUpUpload_frame cause s x) _ _)
  refine KeepsAllBut.trans ?_ (KeepsAllBut.foldl _ (fun s x => (State.giveUpClaim_frame s x).mono (by decide)) _ _)
  exact KeepsAllBut.foldl _ (fun s x => (State.giveUpWait_frame c _ s x).mono (by decide)) _ s

theorem State.commit_frame (s : State) (c : Nat) (o : OpenCtx) : KeepsAllBut commitBlocks s (s.commit c o).1 := by
  unfold State.commit
  refine KeepsAllBut.trans ?_ ((keeps_ingest _ _).mono (by decide))
  refine State.append_after ?_ _ _ (by decide)
  refine KeepsAllBut.trans ?_ ((State.raiseIf_frame _ _ _).mono (by decide))
  intro b hb; cases b <;> first | rfl | exact (hb (by decide)).elim

theorem State.commitHead_frame (s : State) : KeepsAllBut commitBlocks s s.commitHead := by
  unfold State.commitHead
  split
  · exact .refl _ s
  · split
    · split
      · exact (s.commit_frame _ _).trans ((State.report_frame _ _ _).mono (by decide))
      · exact .refl _ s
    · exact .refl _ s

theorem State.commitReady_frame (s : State) : KeepsAllBut commitBlocks s s.commitReady :=
  KeepsAllBut.foldl _ (fun s _ => s.commitHead_frame) _ s

/-! ### Sweeps, due processing, release and disposal -/

theorem State.advance_frame (s : State) (u : SweepRun) (b : Bool) : KeepsAllBut [.index] s (s.advance u b) := keeps_index s _

theorem State.moveItem_frame (s : State) (i : Nat) (r : ItemRec) (l : LiveItem) (e : Expiry) :
    KeepsAllBut [.index, .dispo] s (s.moveItem i r l e) := by
  unfold State.moveItem
  split
  · exact (keeps_index s _).mono (by decide)
  · exact (keeps_index_dispo s _ _).ite ((keeps_index s _).mono (by decide))
  · exact ((keeps_index s _).mono (by decide)).ite ((keeps_index s _).mono (by decide))
  · exact (keeps_index s _).mono (by decide)

theorem State.recompute_frame (s : State) (i : Nat) (r : ItemRec) (l : LiveItem) :
    KeepsAllBut [.index, .dispo] s (s.recompute i r l).1 := by
  unfold State.recompute
  simp only []
  split
  · exact (keeps_index s _).mono (by decide)
  · exact s.moveItem_frame _ _ _ _

theorem State.classAppend_frame (s : State) (c i : Nat) (l : LiveItem) : KeepsAllBut [.index] s (s.classAppend c i l) := by
  unfold State.classAppend
  split
  · split
    · exact (keeps_index s _).ite (.refl _ s)
    · exact .refl _ s
  · exact .refl _ s

theorem State.classStep_frame (s : State) (c i : Nat) : KeepsAllBut [.index, .dispo] s (s.classStep c i).1 := by
  unfold State.classStep
  split
  · split
    · split
      · exact (s.recompute_frame _ _ _).trans ((State.classAppend_frame _ _ _ _).mono (by decide))
      · exact .refl _ s
    · exact .refl _ s
  · exact .refl _ s

theorem State.eventStep_frame (s : State) (i : Nat) : KeepsAllBut [.index, .dispo] s (s.eventStep i).1 := by
  unfold State.eventStep
  split
  · split
    · exact s.recompute_frame _ _ _
    · exact .refl _ s
  · exact .refl _ s

theorem State.holdMove_frame (s : State) (i : Nat) (r : ItemRec) (l : LiveItem) :
    KeepsAllBut [.index, .dispo] s (s.holdMove i r l) := by
  unfold State.holdMove
  split
  · exact (keeps_index_dispo s _ _).ite ((keeps_index s _).mono (by decide))
  · exact ((keeps_index s _).mono (by decide)).ite ((keeps_index s _).mono (by decide))
  · exact (keeps_index s _).mono (by decide)

theorem State.holdStep_frame (s : State) (m i : Nat) : KeepsAllBut [.index, .dispo] s (s.holdStep m i).1 := by
  unfold State.holdStep
  split
  · split
    · simp only []
      split
      · exact .refl _ s
      · split
        · exact s.holdMove_frame _ _ _
        · exact s.holdMove_frame _ _ _
    · exact .refl _ s
  · exact .refl _ s

theorem State.completeSweep_frame (s : State) (r : SweepReq) (u : SweepRun) :
    KeepsAllBut (.index :: .hold :: recordBlocks) s (s.completeSweep r u) := by
  unfold State.completeSweep
  dsimp only
  refine KeepsAllBut.trans (State.append_after (.refl _ s) .sweepDone
    (Fld.sweepReq r ++ [Fld.u32 u.limit, Fld.u32 u.changed]) (by decide)) ?_
  refine KeepsAllBut.trans ((State.raise_frame _ .sweepDone).mono (by decide)) ?_
  intro b hb; cases b <;> first | rfl | exact (hb (by decide)).elim

theorem State.signalDay_frame (s : State) : KeepsAllBut [.dispo] s s.signalDay := keeps_dispo s _

theorem State.dueItem_frame (s : State) (i : Nat) : KeepsAllBut [.index, .dispo, .link] s (s.dueItem i) := by
  unfold State.dueItem
  split
  · split
    · simp only []
      split
      · exact ((keeps_index_dispo s _ _).mono (by decide)).trans ((State.raiseIf_frame _ _ _).mono (by decide))
      · exact (keeps_index s _).mono (by decide)
    · exact .refl _ s
  · exact .refl _ s

theorem State.release_frame (s : State) (auto : Bool) (n : Nat) (asked : Option Nat) :
    KeepsAllBut (.index :: .dispo :: recordBlocks) s (s.release auto n asked) :=
  State.append_after ((keeps_index_dispo s _ _).mono (by decide)) _ _ (by decide)

theorem State.leaveList_frame (s : State) (f : Batch → Batch) : KeepsAllBut [.dispo, .link] s (s.leaveList f) :=
  ((keeps_dispo s _).mono (by decide)).trans ((State.raiseIf_frame _ _ _).mono (by decide))

theorem State.dropSlotRef_frame (t : State × Nat) (ref : EntryRef) : KeepsAllBut [.segs, .media] t.1 (State.dropSlotRef t ref).1 :=
  ((keeps_segs t.1 _).mono (by decide)).trans (State.freeIdle_frame _ _)

theorem State.dropSlotRefs_frame : ∀ (refs : List EntryRef) (t : State × Nat),
    KeepsAllBut [.segs, .media] t.1 (refs.foldl State.dropSlotRef t).1
  | [], t => .refl _ t.1
  | r :: rs, t => (State.dropSlotRef_frame t r).trans (State.dropSlotRefs_frame rs _)

theorem State.disposeItem_frame (s : State) (i : Nat) (r : ItemRec) (l : LiveItem) :
    KeepsAllBut (.segs :: .policy :: .index :: .dispo :: recordBlocks) s (s.disposeItem i r l) := by
  unfold State.disposeItem
  dsimp only
  refine KeepsAllBut.trans ?_ ((State.leaveList_frame _ _).mono (by decide))
  refine State.append_after ?_ _ _ (by decide)
  refine KeepsAllBut.trans ((State.dropSlotRefs_frame (l.segs.map (·.ref)) (s, 0)).mono (by decide)) ?_
  intro b hb; cases b <;> first | rfl | exact (hb (by decide)).elim

theorem State.disposalOf_frame (s : State) (i : Nat) :
    KeepsAllBut (.segs :: .policy :: .index :: .dispo :: recordBlocks) s (s.disposalOf i) := by
  unfold State.disposalOf
  split
  · split
    · split
      · exact ((keeps_index s _).mono (by decide)).trans ((State.leaveList_frame _ _).mono (by decide))
      · simp only []
        split
        · exact s.disposeItem_frame _ _ _
        · exact ((keeps_index s _).mono (by decide)).trans ((State.leaveList_frame _ _).mono (by decide))
    · exact .refl _ s
  · exact .refl _ s

/-! ### Reads -/

theorem State.segReadReply_frame (s : State) (q : SegRead) : KeepsAllBut [.link] s (s.segReadReply q) := by
  unfold State.segReadReply
  exact (s.reply_frame _ _ _ _).ite ((s.reply_frame _ _ _ _).ite ((s.reply_frame _ _ _ _).ite (s.reply_frame _ _ _ _)))

theorem State.segReadPart_frame (s : State) (id part : Nat) (res : ReadResult) :
    KeepsAllBut [.segs, .link] s (s.segReadPart id part res) := by
  unfold State.segReadPart
  split
  · exact .refl _ s
  · simp only []
    split
    · exact (keeps_segs s _).mono (by decide)
    · exact ((keeps_segs s _).mono (by decide)).trans ((State.segReadReply_frame _ _).mono (by decide))

theorem State.verifyEnd_frame (s : State) (v : Verify) (st : Status) (p : List Field) :
    KeepsAllBut [.segs, .link] s (s.verifyEnd v st p) :=
  ((keeps_segs s _).mono (by decide)).trans ((State.reply_frame _ _ _ _ _).mono (by decide))

theorem State.verifyRead_frame (s : State) (v : Verify) : KeepsAllBut [.segs, .media, .link] s (s.verifyRead v) := by
  unfold State.verifyRead
  simp only []
  split
  · exact (s.verifyEnd_frame _ _ _).mono (by decide)
  · split
    · exact (keeps_segs_media s _ _).mono (by decide)
    · exact (keeps_segs s _).mono (by decide)

theorem State.verifyPart_frame (s : State) (place : Nat) (res : ReadResult) :
    KeepsAllBut [.segs, .media, .link] s (s.verifyPart place res) := by
  unfold State.verifyPart
  split
  · exact .refl _ s
  · split
    · exact (s.verifyEnd_frame _ _ _).mono (by decide)
    · split
      · exact (s.verifyEnd_frame _ _ _).mono (by decide)
      · exact (s.verifyEnd_frame _ _ _).mono (by decide)
      · simp only []
        split
        · exact (s.verifyEnd_frame _ _ _).mono (by decide)
        · exact s.verifyRead_frame _

theorem State.auditPart_frame (s : State) (tag : Byte) (a b c d : Nat) (res : ReadResult) :
    KeepsAllBut [.link] s (s.auditPart tag a b c d res) := by
  unfold State.auditPart
  split <;> exact s.reply_frame _ _ _ _

theorem State.finishRead_frame (s : State) (who : Requester) (res : ReadResult) :
    KeepsAllBut [.segs, .media, .link] s (s.finishRead who res) := by
  unfold State.finishRead
  split
  · exact .refl _ s
  · exact (s.segReadPart_frame _ _ _).mono (by decide)
  · exact s.verifyPart_frame _ _
  · exact (s.auditPart_frame _ _ _ _ _ _).mono (by decide)

/-! ### Failures -/

theorem State.handBack_frame (s : State) (i : ChanNo) : KeepsAllBut [.media, .audit] s (s.withStore (s.store.handBack i)) :=
  s.withStore_frame _

theorem State.fenceSteps_frame (s : State) (i : ChanNo) (k : FenceCause) (st : ChanState) :
    KeepsAllBut uploadBlocks s (s.fenceSteps i k st) := by
  unfold State.fenceSteps
  dsimp only
  refine KeepsAllBut.trans ?_ ((State.handBack_frame _ i).mono (by decide))
  refine KeepsAllBut.trans ?_ (KeepsAllBut.foldl _ (fun t u => (State.uploadFails_frame t i u).mono (by decide)) _ _)
  exact (s.setChan_frame i _).mono (by decide)

theorem State.fence_frame (s : State) (i : ChanNo) : KeepsAllBut uploadBlocks s (s.fence i) :=
  (s.fenceSteps_frame i _ _).trans ((State.raise_frame _ _).mono (by decide))

theorem State.countFail_frame (s : State) (i : ChanNo) : KeepsAllBut uploadBlocks s (s.countFail i) := by
  unfold State.countFail
  simp only []
  split
  · exact ((s.setChan_frame i _).mono (by decide)).trans (State.fence_frame _ i)
  · exact (s.setChan_frame i _).mono (by decide)

theorem State.probeEnd_frame (s : State) (i : ChanNo) (st : Status) : KeepsAllBut [.media, .link] s (s.probeEnd i st) := by
  unfold State.probeEnd
  simp only []
  split
  · exact ((s.setChan_frame i _).mono (by decide)).trans ((State.reply_frame _ _ _ _ _).mono (by decide))
  · exact .refl _ s

theorem State.probeFail_frame (s : State) (i : ChanNo) : KeepsAllBut [.media, .link] s (s.probeFail i) := by
  unfold State.probeFail
  simp only []
  split
  · exact ((s.setChan_frame i _).mono (by decide)).trans (State.probeEnd_frame _ i _)
  · exact (s.setChan_frame i _).mono (by decide)

theorem State.probeReadBack_frame (s : State) (i : ChanNo) (n : Nat) (bs : List Byte) :
    KeepsAllBut [.media, .link] s (s.probeReadBack i n bs) := by
  unfold State.probeReadBack
  simp only []
  split
  · split
    · exact (s.setChan_frame i _).mono (by decide)
    · exact ((s.setChan_frame i _).mono (by decide)).trans (State.probeEnd_frame _ i _)
  · exact (s.setChan_frame i _).mono (by decide)

theorem State.probeOffline_frame (s : State) (i : ChanNo) : KeepsAllBut [.media, .link] s (s.probeOffline i) := by
  unfold State.probeOffline
  split
  · split
    · exact .refl _ s
    · exact s.probeEnd_frame i _
  · exact .refl _ s

theorem State.goOffline_frame (s : State) (i : ChanNo) : KeepsAllBut uploadBlocks s (s.goOffline i) := by
  unfold State.goOffline
  simp only []
  refine KeepsAllBut.trans ?_ ((State.raiseIf_frame _ _ _).mono (by decide))
  have h := ((s.setChan_frame i (Channel.abandonErase { s.media.get i with
      op := none, askOwed := false, readQ := [], state := .offline
      auditQ := match (s.media.get i).op with
        | some (.programAudit _ _ p true) => p :: (s.media.get i).auditQ
        | _ => (s.media.get i).auditQ })).mono (bs := uploadBlocks) (by decide)).trans
    ((KeepsAllBut.foldl _ (fun t r => (State.finishRead_frame t r.who .offline).mono (by decide))
      (s.media.get i).allReads _).trans ((State.probeOffline_frame _ i).mono (by decide)))
  split
  · exact h.trans (State.fenceSteps_frame _ i _ _)
  · exact h

/-! ### The time base and start-up -/

theorem State.rollover_frame (s : State) : KeepsAllBut [.clock, .dispo, .link] s s.rollover :=
  ((keeps_clock s _).mono (by decide)).trans (((State.raise_frame _ _).mono (by decide)).trans
    ((State.signalDay_frame _).mono (by decide)))

theorem State.runSecond_frame (s : State) : KeepsAllBut [.clock, .dispo, .link] s s.runSecond := by
  unfold State.runSecond
  split
  · simp only []
    split
    · split
      · exact ((keeps_clock s _).mono (by decide)).trans (State.rollover_frame _)
      · exact ((keeps_clock s _).mono (by decide)).trans ((keeps_clock _ _).mono (by decide))
    · exact (keeps_clock s _).mono (by decide)
  · exact .refl _ s

theorem State.timerSecond_frame (s : State) : KeepsAllBut [.timer] s s.timerSecond := by
  intro b hb; cases b <;> first | rfl | exact (hb (by decide)).elim

theorem State.elapse_frame (s : State) : KeepsAllBut [.clock, .timer, .dispo, .link] s s.elapse := by
  have h : KeepsAllBut [.clock, .timer, .dispo, .link] s (State.timerSecond { s with clock := { s.clock with phase := 0 } }) :=
    ((keeps_clock s _).mono (by decide)).trans ((State.timerSecond_frame _).mono (by decide))
  unfold State.elapse
  simp only []
  split
  · exact h
  · exact h.trans ((State.runSecond_frame _).mono (by decide))
  · exact h.trans ((keeps_clock _ _).mono (by decide))

theorem State.lose_frame (s : State) : KeepsAllBut [.clock, .link] s s.lose := by
  unfold State.lose
  split
  · exact ((keeps_clock s _).mono (by decide)).trans ((State.raise_frame _ _).mono (by decide))
  · exact (keeps_clock s _).mono (by decide)

theorem State.calm_frame (warm : Bool) (s : State) :
    KeepsAllBut [.ingest, .segs, .dispo, .media, .audit, .link] s (s.calm warm) := by
  intro b hb; cases b <;> first | rfl | exact (hb (by decide)).elim

theorem State.clockPowerOn_frame (s : State) : KeepsAllBut [.clock, .dispo, .link] s s.clockPowerOn := by
  unfold State.clockPowerOn
  split
  · simp only []
    split
    · exact ((keeps_clock s _).mono (by decide)).trans (((State.raise_frame _ _).mono (by decide)).trans
        ((State.signalDay_frame _).mono (by decide)))
    · exact (keeps_clock s _).mono (by decide)
  · exact ((keeps_clock s _).mono (by decide)).trans ((State.raise_frame _ _).mono (by decide))

theorem State.payStartUp_frame (s : State) : KeepsAllBut [.clock, .audit, .link] s s.payStartUp := by
  unfold State.payStartUp
  split
  · split
    · exact State.append_after ((keeps_audit s _).mono (by decide)) _ _ (by decide)
    · exact .refl _ s
  · exact .refl _ s

theorem State.genesis_frame (s : State) : KeepsAllBut [.clock, .audit, .link] s s.genesis := by
  unfold State.genesis
  exact (s.append_frame _ _).ite (.refl _ s)

theorem State.mediaNotices_frame (s : State) : KeepsAllBut [.link] s s.mediaNotices :=
  (s.raiseIf_frame _ _).trans ((State.raiseIf_frame _ _ _).trans ((State.raiseIf_frame _ _ _).trans (State.raiseIf_frame _ _ _)))

theorem State.auditStartUp_frame (s : State) : KeepsAllBut [.clock, .media, .audit, .link] s s.auditStartUp := by
  unfold State.auditStartUp
  dsimp only
  refine KeepsAllBut.trans ?_ ((State.payStartUp_frame _).mono (by decide))
  refine KeepsAllBut.trans ?_ ((State.genesis_frame _).mono (by decide))
  refine KeepsAllBut.trans ?_ ((State.raiseIf_frame _ _ _).mono (by decide))
  refine KeepsAllBut.trans ?_ ((State.raiseIf_frame _ _ _).mono (by decide))
  exact ((keeps_audit s _).mono (by decide)).trans ((State.withStore_frame _ _).mono (by decide))

theorem State.dispoStartUp_frame (s : State) : KeepsAllBut [.dispo, .link] s s.dispoStartUp :=
  ((keeps_dispo s _).mono (by decide)).trans ((State.raiseIf_frame _ _ _).mono (by decide))

theorem State.finishStartUp_frame (s : State) : KeepsAllBut startBlocks s s.finishStartUp := by
  unfold State.finishStartUp
  dsimp only
  refine State.closeEvent_after ?_ (by decide)
  refine KeepsAllBut.trans ?_ ((keeps_link _ _).mono (by decide))
  refine KeepsAllBut.trans ?_ ((State.dispoStartUp_frame _).mono (by decide))
  refine KeepsAllBut.trans ?_ ((keeps_index _ _).mono (by decide))
  refine KeepsAllBut.trans ?_ ((State.auditStartUp_frame _).mono (by decide))
  refine KeepsAllBut.trans ?_ ((State.mediaNotices_frame _).mono (by decide))
  exact (keeps_media s _).mono (by decide)

theorem State.beginStartUp_frame (k : StartCause) (intact : Bool) (s : State) :
    KeepsAllBut startBlocks s (State.beginStartUp k intact s) := by
  unfold State.beginStartUp
  simp only []
  have h : KeepsAllBut startBlocks s s.segsStartUp := (keeps_segs_media s _ _).mono (by decide)
  split
  · refine KeepsAllBut.trans (h.trans ?_) (State.finishStartUp_frame _)
    intro b hb; cases b <;> first | rfl | exact (hb (by decide)).elim
  · refine h.trans ?_
    intro b hb; cases b <;> first | rfl | exact (hb (by decide)).elim

theorem State.identified_frame (s : State) (cs : List ChanNo) (k : StartCause) (i : ChanNo) (pass : Bool) :
    KeepsAllBut startBlocks s (s.identified cs k i pass) := by
  unfold State.identified
  simp only []
  have h : KeepsAllBut startBlocks s (s.setChan i (if pass then { s.media.get i with op := none } else (s.media.get i).noAnswer)) :=
    (s.setChan_frame i _).mono (by decide)
  split
  · exact (h.trans ((keeps_link _ _).mono (by decide))).trans (State.finishStartUp_frame _)
  · exact h.trans ((keeps_link _ _).mono (by decide))

end Sys2Proof.Machine
end

