-- ==== Sys2Proof/Laws/State.lean ====
section
/-! SUPPORT. One lemma for each field and each update of the state, true by unfolding, so that no later proof unfolds a record
update. -/

namespace Sys2Proof.Machine

/-! ### Forming a frame -/

@[simp] theorem State.emit_clock (s : State) (f : Frame) : (s.emit f).clock = s.clock := rfl

@[simp] theorem State.emit_timer (s : State) (f : Frame) : (s.emit f).timer = s.timer := rfl

@[simp] theorem State.emit_ingest (s : State) (f : Frame) : (s.emit f).ingest = s.ingest := rfl

@[simp] theorem State.emit_segs (s : State) (f : Frame) : (s.emit f).segs = s.segs := rfl

@[simp] theorem State.emit_policy (s : State) (f : Frame) : (s.emit f).policy = s.policy := rfl

@[simp] theorem State.emit_index (s : State) (f : Frame) : (s.emit f).index = s.index := rfl

@[simp] theorem State.emit_hold (s : State) (f : Frame) : (s.emit f).hold = s.hold := rfl

@[simp] theorem State.emit_dispo (s : State) (f : Frame) : (s.emit f).dispo = s.dispo := rfl

@[simp] theorem State.emit_media (s : State) (f : Frame) : (s.emit f).media = s.media := rfl

@[simp] theorem State.emit_audit (s : State) (f : Frame) : (s.emit f).audit = s.audit := rfl

@[simp] theorem State.emit_link (s : State) (f : Frame) :
    (s.emit f).link = { s.link with tx := s.link.tx ++ [f] } := rfl

@[simp] theorem State.emit_settings (s : State) (f : Frame) : (s.emit f).settings = s.settings := rfl

@[simp] theorem State.emit_compliant (s : State) (f : Frame) : (s.emit f).compliant = s.compliant := rfl

@[simp] theorem State.emit_pending (s : State) (f : Frame) : (s.emit f).pending = s.pending := rfl

/-! ### A reply -/

@[simp] theorem State.reply_clock (s : State) (tag : Byte) (code : Nat) (st : Status) (p : List Field) : (s.reply tag code st p).clock = s.clock := rfl

@[simp] theorem State.reply_timer (s : State) (tag : Byte) (code : Nat) (st : Status) (p : List Field) : (s.reply tag code st p).timer = s.timer := rfl

@[simp] theorem State.reply_ingest (s : State) (tag : Byte) (code : Nat) (st : Status) (p : List Field) : (s.reply tag code st p).ingest = s.ingest := rfl

@[simp] theorem State.reply_segs (s : State) (tag : Byte) (code : Nat) (st : Status) (p : List Field) : (s.reply tag code st p).segs = s.segs := rfl

@[simp] theorem State.reply_policy (s : State) (tag : Byte) (code : Nat) (st : Status) (p : List Field) : (s.reply tag code st p).policy = s.policy := rfl

@[simp] theorem State.reply_index (s : State) (tag : Byte) (code : Nat) (st : Status) (p : List Field) : (s.reply tag code st p).index = s.index := rfl

@[simp] theorem State.reply_hold (s : State) (tag : Byte) (code : Nat) (st : Status) (p : List Field) : (s.reply tag code st p).hold = s.hold := rfl

@[simp] theorem State.reply_dispo (s : State) (tag : Byte) (code : Nat) (st : Status) (p : List Field) : (s.reply tag code st p).dispo = s.dispo := rfl

@[simp] theorem State.reply_media (s : State) (tag : Byte) (code : Nat) (st : Status) (p : List Field) : (s.reply tag code st p).media = s.media := rfl

@[simp] theorem State.reply_audit (s : State) (tag : Byte) (code : Nat) (st : Status) (p : List Field) : (s.reply tag code st p).audit = s.audit := rfl

@[simp] theorem State.reply_link (s : State) (tag : Byte) (code : Nat) (st : Status) (p : List Field) :
    (s.reply tag code st p).link = { s.link with tx := s.link.tx ++ [replyFrame tag code st p] } := rfl

@[simp] theorem State.reply_settings (s : State) (tag : Byte) (code : Nat) (st : Status) (p : List Field) : (s.reply tag code st p).settings = s.settings := rfl

@[simp] theorem State.reply_compliant (s : State) (tag : Byte) (code : Nat) (st : Status) (p : List Field) : (s.reply tag code st p).compliant = s.compliant := rfl

@[simp] theorem State.reply_pending (s : State) (tag : Byte) (code : Nat) (st : Status) (p : List Field) : (s.reply tag code st p).pending = s.pending := rfl

/-! ### A report -/

@[simp] theorem State.report_clock (s : State) (code : Nat) (p : List Field) : (s.report code p).clock = s.clock := rfl

@[simp] theorem State.report_timer (s : State) (code : Nat) (p : List Field) : (s.report code p).timer = s.timer := rfl

@[simp] theorem State.report_ingest (s : State) (code : Nat) (p : List Field) : (s.report code p).ingest = s.ingest := rfl

@[simp] theorem State.report_segs (s : State) (code : Nat) (p : List Field) : (s.report code p).segs = s.segs := rfl

@[simp] theorem State.report_policy (s : State) (code : Nat) (p : List Field) : (s.report code p).policy = s.policy := rfl

@[simp] theorem State.report_index (s : State) (code : Nat) (p : List Field) : (s.report code p).index = s.index := rfl

@[simp] theorem State.report_hold (s : State) (code : Nat) (p : List Field) : (s.report code p).hold = s.hold := rfl

@[simp] theorem State.report_dispo (s : State) (code : Nat) (p : List Field) : (s.report code p).dispo = s.dispo := rfl

@[simp] theorem State.report_media (s : State) (code : Nat) (p : List Field) : (s.report code p).media = s.media := rfl

@[simp] theorem State.report_audit (s : State) (code : Nat) (p : List Field) : (s.report code p).audit = s.audit := rfl

@[simp] theorem State.report_link (s : State) (code : Nat) (p : List Field) :
    (s.report code p).link = { s.link with tx := s.link.tx ++ [{ ftype := .report, tag := 0, code, status := .ok, payload := p }] } := rfl

@[simp] theorem State.report_settings (s : State) (code : Nat) (p : List Field) : (s.report code p).settings = s.settings := rfl

@[simp] theorem State.report_compliant (s : State) (code : Nat) (p : List Field) : (s.report code p).compliant = s.compliant := rfl

@[simp] theorem State.report_pending (s : State) (code : Nat) (p : List Field) : (s.report code p).pending = s.pending := rfl

/-! ### Raising a notice -/

@[simp] theorem State.raise_clock (s : State) (n : Notice) : (s.raise n).clock = s.clock := rfl

@[simp] theorem State.raise_timer (s : State) (n : Notice) : (s.raise n).timer = s.timer := rfl

@[simp] theorem State.raise_ingest (s : State) (n : Notice) : (s.raise n).ingest = s.ingest := rfl

@[simp] theorem State.raise_segs (s : State) (n : Notice) : (s.raise n).segs = s.segs := rfl

@[simp] theorem State.raise_policy (s : State) (n : Notice) : (s.raise n).policy = s.policy := rfl

@[simp] theorem State.raise_index (s : State) (n : Notice) : (s.raise n).index = s.index := rfl

@[simp] theorem State.raise_hold (s : State) (n : Notice) : (s.raise n).hold = s.hold := rfl

@[simp] theorem State.raise_dispo (s : State) (n : Notice) : (s.raise n).dispo = s.dispo := rfl

@[simp] theorem State.raise_media (s : State) (n : Notice) : (s.raise n).media = s.media := rfl

@[simp] theorem State.raise_audit (s : State) (n : Notice) : (s.raise n).audit = s.audit := rfl

@[simp] theorem State.raise_link (s : State) (n : Notice) :
    (s.raise n).link = s.link.raise s.settings.notices n := rfl

@[simp] theorem State.raise_settings (s : State) (n : Notice) : (s.raise n).settings = s.settings := rfl

@[simp] theorem State.raise_compliant (s : State) (n : Notice) : (s.raise n).compliant = s.compliant := rfl

@[simp] theorem State.raise_pending (s : State) (n : Notice) : (s.raise n).pending = s.pending := rfl

/-! ### Writing a channel -/

@[simp] theorem State.setChan_clock (s : State) (i : ChanNo) (c : Channel) : (s.setChan i c).clock = s.clock := rfl

@[simp] theorem State.setChan_timer (s : State) (i : ChanNo) (c : Channel) : (s.setChan i c).timer = s.timer := rfl

@[simp] theorem State.setChan_ingest (s : State) (i : ChanNo) (c : Channel) : (s.setChan i c).ingest = s.ingest := rfl

@[simp] theorem State.setChan_segs (s : State) (i : ChanNo) (c : Channel) : (s.setChan i c).segs = s.segs := rfl

@[simp] theorem State.setChan_policy (s : State) (i : ChanNo) (c : Channel) : (s.setChan i c).policy = s.policy := rfl

@[simp] theorem State.setChan_index (s : State) (i : ChanNo) (c : Channel) : (s.setChan i c).index = s.index := rfl

@[simp] theorem State.setChan_hold (s : State) (i : ChanNo) (c : Channel) : (s.setChan i c).hold = s.hold := rfl

@[simp] theorem State.setChan_dispo (s : State) (i : ChanNo) (c : Channel) : (s.setChan i c).dispo = s.dispo := rfl

@[simp] theorem State.setChan_media (s : State) (i : ChanNo) (c : Channel) :
    (s.setChan i c).media = s.media.set i c := rfl

@[simp] theorem State.setChan_audit (s : State) (i : ChanNo) (c : Channel) : (s.setChan i c).audit = s.audit := rfl

@[simp] theorem State.setChan_link (s : State) (i : ChanNo) (c : Channel) : (s.setChan i c).link = s.link := rfl

@[simp] theorem State.setChan_settings (s : State) (i : ChanNo) (c : Channel) : (s.setChan i c).settings = s.settings := rfl

@[simp] theorem State.setChan_compliant (s : State) (i : ChanNo) (c : Channel) : (s.setChan i c).compliant = s.compliant := rfl

@[simp] theorem State.setChan_pending (s : State) (i : ChanNo) (c : Channel) : (s.setChan i c).pending = s.pending := rfl

/-! ### Writing the store back -/

@[simp] theorem State.withStore_clock (s : State) (t : Store) : (s.withStore t).clock = s.clock := rfl

@[simp] theorem State.withStore_timer (s : State) (t : Store) : (s.withStore t).timer = s.timer := rfl

@[simp] theorem State.withStore_ingest (s : State) (t : Store) : (s.withStore t).ingest = s.ingest := rfl

@[simp] theorem State.withStore_segs (s : State) (t : Store) : (s.withStore t).segs = s.segs := rfl

@[simp] theorem State.withStore_policy (s : State) (t : Store) : (s.withStore t).policy = s.policy := rfl

@[simp] theorem State.withStore_index (s : State) (t : Store) : (s.withStore t).index = s.index := rfl

@[simp] theorem State.withStore_hold (s : State) (t : Store) : (s.withStore t).hold = s.hold := rfl

@[simp] theorem State.withStore_dispo (s : State) (t : Store) : (s.withStore t).dispo = s.dispo := rfl

@[simp] theorem State.withStore_media (s : State) (t : Store) :
    (s.withStore t).media = t.media := rfl

@[simp] theorem State.withStore_audit (s : State) (t : Store) :
    (s.withStore t).audit = t.audit := rfl

@[simp] theorem State.withStore_link (s : State) (t : Store) : (s.withStore t).link = s.link := rfl

@[simp] theorem State.withStore_settings (s : State) (t : Store) : (s.withStore t).settings = s.settings := rfl

@[simp] theorem State.withStore_compliant (s : State) (t : Store) : (s.withStore t).compliant = s.compliant := rfl

@[simp] theorem State.withStore_pending (s : State) (t : Store) : (s.withStore t).pending = s.pending := rfl

/-! ### A request that names a context -/

@[simp] theorem State.touch_clock (s : State) (c : Nat) (o : OpenCtx) : (s.touch c o).clock = s.clock := rfl

@[simp] theorem State.touch_timer (s : State) (c : Nat) (o : OpenCtx) : (s.touch c o).timer = s.timer := rfl

@[simp] theorem State.touch_ingest (s : State) (c : Nat) (o : OpenCtx) :
    (s.touch c o).ingest = s.ingest.setOpen c (o.restart s.timer s.settings.timeout) := rfl

@[simp] theorem State.touch_segs (s : State) (c : Nat) (o : OpenCtx) : (s.touch c o).segs = s.segs := rfl

@[simp] theorem State.touch_policy (s : State) (c : Nat) (o : OpenCtx) : (s.touch c o).policy = s.policy := rfl

@[simp] theorem State.touch_index (s : State) (c : Nat) (o : OpenCtx) : (s.touch c o).index = s.index := rfl

@[simp] theorem State.touch_hold (s : State) (c : Nat) (o : OpenCtx) : (s.touch c o).hold = s.hold := rfl

@[simp] theorem State.touch_dispo (s : State) (c : Nat) (o : OpenCtx) : (s.touch c o).dispo = s.dispo := rfl

@[simp] theorem State.touch_media (s : State) (c : Nat) (o : OpenCtx) : (s.touch c o).media = s.media := rfl

@[simp] theorem State.touch_audit (s : State) (c : Nat) (o : OpenCtx) : (s.touch c o).audit = s.audit := rfl

@[simp] theorem State.touch_link (s : State) (c : Nat) (o : OpenCtx) : (s.touch c o).link = s.link := rfl

@[simp] theorem State.touch_settings (s : State) (c : Nat) (o : OpenCtx) : (s.touch c o).settings = s.settings := rfl

@[simp] theorem State.touch_compliant (s : State) (c : Nat) (o : OpenCtx) : (s.touch c o).compliant = s.compliant := rfl

@[simp] theorem State.touch_pending (s : State) (c : Nat) (o : OpenCtx) : (s.touch c o).pending = s.pending := rfl

/-! ### The deadlines at the end of an event -/

@[simp] theorem State.retimeAll_clock (s : State) : (s.retimeAll).clock = s.clock := rfl

@[simp] theorem State.retimeAll_timer (s : State) : (s.retimeAll).timer = s.timer := rfl

@[simp] theorem State.retimeAll_segs (s : State) : (s.retimeAll).segs = s.segs := rfl

@[simp] theorem State.retimeAll_policy (s : State) : (s.retimeAll).policy = s.policy := rfl

@[simp] theorem State.retimeAll_index (s : State) : (s.retimeAll).index = s.index := rfl

@[simp] theorem State.retimeAll_hold (s : State) : (s.retimeAll).hold = s.hold := rfl

@[simp] theorem State.retimeAll_dispo (s : State) : (s.retimeAll).dispo = s.dispo := rfl

@[simp] theorem State.retimeAll_media (s : State) : (s.retimeAll).media = s.media := rfl

@[simp] theorem State.retimeAll_audit (s : State) : (s.retimeAll).audit = s.audit := rfl

@[simp] theorem State.retimeAll_link (s : State) : (s.retimeAll).link = s.link := rfl

@[simp] theorem State.retimeAll_settings (s : State) : (s.retimeAll).settings = s.settings := rfl

@[simp] theorem State.retimeAll_compliant (s : State) : (s.retimeAll).compliant = s.compliant := rfl

@[simp] theorem State.retimeAll_pending (s : State) : (s.retimeAll).pending = s.pending := rfl

/-! ### The reply of an event -/

@[simp] theorem State.answer_clock (s t : State) (tag : Byte) (code : Nat) (st : Status) (p : List Field) :
    (s.answer tag code st p t).clock = t.clock := rfl

@[simp] theorem State.answer_timer (s t : State) (tag : Byte) (code : Nat) (st : Status) (p : List Field) :
    (s.answer tag code st p t).timer = t.timer := rfl

@[simp] theorem State.answer_ingest (s t : State) (tag : Byte) (code : Nat) (st : Status) (p : List Field) :
    (s.answer tag code st p t).ingest = t.ingest := rfl

@[simp] theorem State.answer_segs (s t : State) (tag : Byte) (code : Nat) (st : Status) (p : List Field) :
    (s.answer tag code st p t).segs = t.segs := rfl

@[simp] theorem State.answer_policy (s t : State) (tag : Byte) (code : Nat) (st : Status) (p : List Field) :
    (s.answer tag code st p t).policy = t.policy := rfl

@[simp] theorem State.answer_index (s t : State) (tag : Byte) (code : Nat) (st : Status) (p : List Field) :
    (s.answer tag code st p t).index = t.index := rfl

@[simp] theorem State.answer_hold (s t : State) (tag : Byte) (code : Nat) (st : Status) (p : List Field) :
    (s.answer tag code st p t).hold = t.hold := rfl

@[simp] theorem State.answer_dispo (s t : State) (tag : Byte) (code : Nat) (st : Status) (p : List Field) :
    (s.answer tag code st p t).dispo = t.dispo := rfl

@[simp] theorem State.answer_media (s t : State) (tag : Byte) (code : Nat) (st : Status) (p : List Field) :
    (s.answer tag code st p t).media = t.media := rfl

@[simp] theorem State.answer_audit (s t : State) (tag : Byte) (code : Nat) (st : Status) (p : List Field) :
    (s.answer tag code st p t).audit = t.audit := rfl

@[simp] theorem State.answer_settings (s t : State) (tag : Byte) (code : Nat) (st : Status) (p : List Field) :
    (s.answer tag code st p t).settings = t.settings := rfl

@[simp] theorem State.answer_compliant (s t : State) (tag : Byte) (code : Nat) (st : Status) (p : List Field) :
    (s.answer tag code st p t).compliant = t.compliant := rfl

@[simp] theorem State.answer_pending (s t : State) (tag : Byte) (code : Nat) (st : Status) (p : List Field) :
    (s.answer tag code st p t).pending = t.pending := rfl

/-! ### Raising a notice under a condition -/

@[simp] theorem State.raiseIf_clock (s : State) (b : Bool) (n : Notice) : (s.raiseIf b n).clock = s.clock := by cases b <;> rfl

@[simp] theorem State.raiseIf_timer (s : State) (b : Bool) (n : Notice) : (s.raiseIf b n).timer = s.timer := by cases b <;> rfl

@[simp] theorem State.raiseIf_ingest (s : State) (b : Bool) (n : Notice) : (s.raiseIf b n).ingest = s.ingest := by cases b <;> rfl

@[simp] theorem State.raiseIf_segs (s : State) (b : Bool) (n : Notice) : (s.raiseIf b n).segs = s.segs := by cases b <;> rfl

@[simp] theorem State.raiseIf_policy (s : State) (b : Bool) (n : Notice) : (s.raiseIf b n).policy = s.policy := by cases b <;> rfl

@[simp] theorem State.raiseIf_index (s : State) (b : Bool) (n : Notice) : (s.raiseIf b n).index = s.index := by cases b <;> rfl

@[simp] theorem State.raiseIf_hold (s : State) (b : Bool) (n : Notice) : (s.raiseIf b n).hold = s.hold := by cases b <;> rfl

@[simp] theorem State.raiseIf_dispo (s : State) (b : Bool) (n : Notice) : (s.raiseIf b n).dispo = s.dispo := by cases b <;> rfl

@[simp] theorem State.raiseIf_media (s : State) (b : Bool) (n : Notice) : (s.raiseIf b n).media = s.media := by cases b <;> rfl

@[simp] theorem State.raiseIf_audit (s : State) (b : Bool) (n : Notice) : (s.raiseIf b n).audit = s.audit := by cases b <;> rfl

@[simp] theorem State.raiseIf_link (s : State) (b : Bool) (n : Notice) :
    (s.raiseIf b n).link = if b then s.link.raise s.settings.notices n else s.link := by cases b <;> rfl

@[simp] theorem State.raiseIf_settings (s : State) (b : Bool) (n : Notice) : (s.raiseIf b n).settings = s.settings := by cases b <;> rfl

@[simp] theorem State.raiseIf_compliant (s : State) (b : Bool) (n : Notice) : (s.raiseIf b n).compliant = s.compliant := by cases b <;> rfl

@[simp] theorem State.raiseIf_pending (s : State) (b : Bool) (n : Notice) : (s.raiseIf b n).pending = s.pending := by cases b <;> rfl

/-! ### An append -/

@[simp] theorem State.append_clock (s : State) (kind : AuditKind) (subject : List Field) :
    (s.append kind subject).clock = { s.clock with hwm := s.clock.counter } := by simp [State.append]

@[simp] theorem State.append_timer (s : State) (kind : AuditKind) (subject : List Field) : (s.append kind subject).timer = s.timer := by simp [State.append]

@[simp] theorem State.append_ingest (s : State) (kind : AuditKind) (subject : List Field) : (s.append kind subject).ingest = s.ingest := by simp [State.append]

@[simp] theorem State.append_segs (s : State) (kind : AuditKind) (subject : List Field) : (s.append kind subject).segs = s.segs := by simp [State.append]

@[simp] theorem State.append_policy (s : State) (kind : AuditKind) (subject : List Field) : (s.append kind subject).policy = s.policy := by simp [State.append]

@[simp] theorem State.append_index (s : State) (kind : AuditKind) (subject : List Field) : (s.append kind subject).index = s.index := by simp [State.append]

@[simp] theorem State.append_hold (s : State) (kind : AuditKind) (subject : List Field) : (s.append kind subject).hold = s.hold := by simp [State.append]

@[simp] theorem State.append_dispo (s : State) (kind : AuditKind) (subject : List Field) : (s.append kind subject).dispo = s.dispo := by simp [State.append]

@[simp] theorem State.append_media (s : State) (kind : AuditKind) (subject : List Field) : (s.append kind subject).media = s.media := by simp [State.append]

@[simp] theorem State.append_audit (s : State) (kind : AuditKind) (subject : List Field) :
    (s.append kind subject).audit = s.audit.append s.clock.counter s.timer kind subject := by simp [State.append]

@[simp] theorem State.append_settings (s : State) (kind : AuditKind) (subject : List Field) : (s.append kind subject).settings = s.settings := by simp [State.append]

@[simp] theorem State.append_compliant (s : State) (kind : AuditKind) (subject : List Field) : (s.append kind subject).compliant = s.compliant := by simp [State.append]

@[simp] theorem State.append_pending (s : State) (kind : AuditKind) (subject : List Field) : (s.append kind subject).pending = s.pending := by simp [State.append]

/-! ### The end of an event -/

@[simp] theorem State.closeEvent_clock (s0 s : State) : (State.closeEvent s0 s).clock = s.clock := by
  unfold State.closeEvent; split <;> simp [State.noteSpace]

@[simp] theorem State.closeEvent_timer (s0 s : State) : (State.closeEvent s0 s).timer = s.timer := by
  unfold State.closeEvent; split <;> simp [State.noteSpace]

@[simp] theorem State.closeEvent_ingest (s0 s : State) : (State.closeEvent s0 s).ingest = s.ingest := by
  unfold State.closeEvent; split <;> simp [State.noteSpace]

@[simp] theorem State.closeEvent_segs (s0 s : State) : (State.closeEvent s0 s).segs = s.segs := by
  unfold State.closeEvent; split <;> simp [State.noteSpace]

@[simp] theorem State.closeEvent_policy (s0 s : State) : (State.closeEvent s0 s).policy = s.policy := by
  unfold State.closeEvent; split <;> simp [State.noteSpace]

@[simp] theorem State.closeEvent_index (s0 s : State) : (State.closeEvent s0 s).index = s.index := by
  unfold State.closeEvent; split <;> simp [State.noteSpace]

@[simp] theorem State.closeEvent_hold (s0 s : State) : (State.closeEvent s0 s).hold = s.hold := by
  unfold State.closeEvent; split <;> simp [State.noteSpace]

@[simp] theorem State.closeEvent_dispo (s0 s : State) : (State.closeEvent s0 s).dispo = s.dispo := by
  unfold State.closeEvent; split <;> simp [State.noteSpace]

@[simp] theorem State.closeEvent_settings (s0 s : State) : (State.closeEvent s0 s).settings = s.settings := by
  unfold State.closeEvent; split <;> simp [State.noteSpace]

@[simp] theorem State.closeEvent_compliant (s0 s : State) : (State.closeEvent s0 s).compliant = s.compliant := by
  unfold State.closeEvent; split <;> simp [State.noteSpace]

@[simp] theorem State.closeEvent_pending (s0 s : State) : (State.closeEvent s0 s).pending = s.pending := by
  unfold State.closeEvent; split <;> simp [State.noteSpace]

end Sys2Proof.Machine
end

