-- ==== Sys2Proof/Laws/Tables.lean ====
section
/-! SUPPORT. The laws of the sparse tables: what a key reads after a write, a removal or a map, and that every operation keeps the
keys in rising order. -/

namespace Sys2Proof

variable {α : Type}

/-! ### What a key reads -/

@[simp] theorem Table.find_nil (k : Nat) : Table.find ([] : Table α) k = none := rfl

@[simp] theorem Table.get_nil (d : α) (k : Nat) : Table.get d ([] : Table α) k = d := rfl

theorem Table.find_put (t : Table α) (k j : Nat) (v : α) : Table.find (Table.put t k v) j = if j = k then some v else Table.find t j := by
  induction t with
  | nil => simp [Table.put, Table.find]
  | cons e t ih =>
    obtain ⟨m, w⟩ := e
    simp only [Table.put]
    split
    · simp [Table.find]
    · split
      · simp only [Table.find]
        split <;> simp_all
      · simp only [Table.find, ih]
        split
        · split
          · omega
          · rfl
        · rfl

@[simp] theorem Table.find_put_self (t : Table α) (k : Nat) (v : α) : Table.find (Table.put t k v) k = some v := by
  simp [Table.find_put]

theorem Table.find_put_of_ne (t : Table α) {k j : Nat} (v : α) (h : j ≠ k) : Table.find (Table.put t k v) j = Table.find t j := by
  simp [Table.find_put, h]

theorem Table.find_del (t : Table α) (k j : Nat) : Table.find (Table.del t k) j = if j = k then none else Table.find t j := by
  induction t with
  | nil => simp [Table.del]
  | cons e t ih =>
    obtain ⟨m, w⟩ := e
    simp only [Table.del, List.filter_cons] at ih ⊢
    by_cases hm : m = k
    · simp only [hm, bne_self_eq_false, Bool.false_eq_true, if_false, ih, Table.find]
      split <;> simp_all
    · simp only [bne_iff_ne, ne_eq, hm, not_false_eq_true, if_true, Table.find, ih]
      split
      · split
        · omega
        · rfl
      · rfl

/-- A write is read back, and leaves every other key as it was. -/
theorem Table.get_set [DecidableEq α] (d : α) (t : Table α) (k j : Nat) (v : α) :
    Table.get d (Table.set d t k v) j = if j = k then v else Table.get d t j := by
  unfold Table.get Table.set
  split
  · rw [Table.find_del]; split <;> simp_all
  · rw [Table.find_put]; split <;> simp

@[simp] theorem Table.get_set_self [DecidableEq α] (d : α) (t : Table α) (k : Nat) (v : α) :
    Table.get d (Table.set d t k v) k = v := by simp [Table.get_set]

theorem Table.get_set_of_ne [DecidableEq α] (d : α) (t : Table α) {k j : Nat} (v : α) (h : j ≠ k) :
    Table.get d (Table.set d t k v) j = Table.get d t j := by simp [Table.get_set, h]

theorem Table.find_mapVal (f : α → α) (t : Table α) (k : Nat) : Table.find (Table.mapVal f t) k = (Table.find t k).map f := by
  induction t with
  | nil => rfl
  | cons e t ih =>
    obtain ⟨m, w⟩ := e
    simp only [Table.mapVal, List.map_cons, Table.find] at ih ⊢
    split
    · rfl
    · exact ih

/-- A map that keeps the default maps what every key reads. -/
theorem Table.get_mapVal {d : α} {f : α → α} (hd : f d = d) (t : Table α) (k : Nat) :
    Table.get d (Table.mapVal f t) k = f (Table.get d t k) := by
  unfold Table.get
  rw [Table.find_mapVal]
  cases Table.find t k <;> simp [hd]

/-! ### Rising order -/

theorem Table.sorted_iff (t : Table α) : Table.sorted t = true ↔ t.Pairwise (fun a b => a.1 < b.1) := by
  induction t with
  | nil => simp [Table.sorted]
  | cons e t ih =>
    cases t with
    | nil => simp [Table.sorted]
    | cons f t =>
      simp only [Table.sorted, Bool.and_eq_true, decide_eq_true_eq, ih, List.pairwise_cons]
      constructor
      · rintro ⟨h, h1, h2⟩
        refine ⟨?_, h1, h2⟩
        intro a ha
        rcases List.mem_cons.mp ha with rfl | ha
        · exact h
        · exact Nat.lt_trans h (h1 a ha)
      · rintro ⟨h, h1⟩
        exact ⟨h f (List.mem_cons_self ..), h1⟩

theorem Table.mem_put {t : Table α} {k : Nat} {v : α} {e : Nat × α} (h : e ∈ Table.put t k v) : e = (k, v) ∨ e ∈ t := by
  induction t with
  | nil => simpa [Table.put] using h
  | cons x t ih =>
    obtain ⟨m, w⟩ := x
    simp only [Table.put] at h
    split at h
    · simpa using h
    · split at h
      · rcases List.mem_cons.mp h with rfl | h <;> simp_all
      · rcases List.mem_cons.mp h with rfl | h
        · simp
        · rcases ih h with h | h <;> simp [h]

theorem Table.sorted_put {t : Table α} (k : Nat) (v : α) (h : Table.sorted t = true) : Table.sorted (Table.put t k v) = true := by
  rw [Table.sorted_iff] at h ⊢
  induction t with
  | nil => simp [Table.put]
  | cons x t ih =>
    obtain ⟨m, w⟩ := x
    rw [List.pairwise_cons] at h
    simp only [Table.put]
    split
    · rw [List.pairwise_cons, List.pairwise_cons]
      refine ⟨fun a ha => ?_, h⟩
      rcases List.mem_cons.mp ha with rfl | ha
      · assumption
      · exact Nat.lt_trans ‹_› (h.1 a ha)
    · split
      · rw [List.pairwise_cons]
        refine ⟨fun a ha => ?_, h.2⟩
        have := h.1 a ha
        simp_all
      · rw [List.pairwise_cons]
        refine ⟨fun a ha => ?_, ih h.2⟩
        rcases Table.mem_put ha with rfl | ha
        · show m < k; omega
        · exact h.1 a ha

theorem Table.sorted_filter {t : Table α} (p : Nat × α → Bool) (h : Table.sorted t = true) : Table.sorted (t.filter p : Table α) = true := by
  rw [Table.sorted_iff] at h ⊢
  exact h.sublist (List.filter_sublist ..)

theorem Table.sorted_del {t : Table α} (k : Nat) (h : Table.sorted t = true) : Table.sorted (Table.del t k) = true :=
  Table.sorted_filter _ h

theorem Table.sorted_set [DecidableEq α] (d : α) {t : Table α} (k : Nat) (v : α) (h : Table.sorted t = true) :
    Table.sorted (Table.set d t k v) = true := by
  unfold Table.set
  split
  · exact Table.sorted_del k h
  · exact Table.sorted_put k v h

theorem Table.sorted_mapVal {t : Table α} (f : α → α) (h : Table.sorted t = true) : Table.sorted (Table.mapVal f t) = true := by
  rw [Table.sorted_iff] at h ⊢
  exact List.pairwise_map.mpr h

/-- In a table in rising order every listed entry is the one its key reads. -/
theorem Table.find_of_mem {t : Table α} (h : Table.sorted t = true) {k : Nat} {v : α} (hm : (k, v) ∈ t) : Table.find t k = some v := by
  rw [Table.sorted_iff] at h
  induction t with
  | nil => cases hm
  | cons x t ih =>
    obtain ⟨m, w⟩ := x
    rw [List.pairwise_cons] at h
    simp only [Table.find]
    rcases List.mem_cons.mp hm with he | hm
    · simp_all
    · have := h.1 _ hm
      rw [if_neg (by show k ≠ m; simp only at this; omega)]
      exact ih h.2 hm

theorem Table.mem_of_find {t : Table α} {k : Nat} {v : α} (h : Table.find t k = some v) : (k, v) ∈ t := by
  induction t with
  | nil => cases h
  | cons x t ih =>
    obtain ⟨m, w⟩ := x
    simp only [Table.find] at h
    split at h
    · simp_all
    · exact List.mem_cons_of_mem _ (ih h)

namespace Machine

/-! ### The channels as a table of four -/

@[simp] theorem Media.get_set_self (m : Media) (i : ChanNo) (c : Channel) : (m.set i c).get i = c := by
  match i with
  | 0 => rfl
  | 1 => rfl
  | 2 => rfl
  | 3 => rfl

theorem Media.get_set_of_ne (m : Media) {i j : ChanNo} (c : Channel) (h : j ≠ i) : (m.set i c).get j = m.get j := by
  match i, j with
  | 0, 0 => exact absurd rfl h
  | 0, 1 => rfl
  | 0, 2 => rfl
  | 0, 3 => rfl
  | 1, 0 => rfl
  | 1, 1 => exact absurd rfl h
  | 1, 2 => rfl
  | 1, 3 => rfl
  | 2, 0 => rfl
  | 2, 1 => rfl
  | 2, 2 => exact absurd rfl h
  | 2, 3 => rfl
  | 3, 0 => rfl
  | 3, 1 => rfl
  | 3, 2 => rfl
  | 3, 3 => exact absurd rfl h

theorem Media.get_set (m : Media) (i j : ChanNo) (c : Channel) : (m.set i c).get j = if j = i then c else m.get j := by
  split
  · subst j; exact m.get_set_self i c
  · exact m.get_set_of_ne c ‹_›

@[simp] theorem Media.set_last (m : Media) (i : ChanNo) (c : Channel) : (m.set i c).last = m.last := by
  match i with
  | 0 => rfl
  | 1 => rfl
  | 2 => rfl
  | 3 => rfl

/-- The later of two writes of one channel stands. -/
@[simp] theorem Media.set_set (m : Media) (i : ChanNo) (c d : Channel) : (m.set i c).set i d = m.set i d := by
  match i with
  | 0 => rfl
  | 1 => rfl
  | 2 => rfl
  | 3 => rfl

/-! ### The tables of the blocks -/

@[simp] theorem Channel.setZone_zone (c : Channel) (z : Nat) (v : Zone) : (c.setZone z v).zone z = v := by
  simp [Channel.setZone, Channel.zone]

theorem Channel.setZone_zone_ne (c : Channel) {z y : Nat} (v : Zone) (h : y ≠ z) : (c.setZone z v).zone y = c.zone y := by
  simp [Channel.setZone, Channel.zone, Table.get_set_of_ne _ _ _ h]

@[simp] theorem Ingest.setCtx_ctx (g : Ingest) (n : Nat) (c : Ctx) : (g.setCtx n c).ctx n = c := by
  simp [Ingest.setCtx, Ingest.ctx]

theorem Ingest.setCtx_ctx_ne (g : Ingest) {n m : Nat} (c : Ctx) (h : m ≠ n) : (g.setCtx n c).ctx m = g.ctx m := by
  simp [Ingest.setCtx, Ingest.ctx, Table.get_set_of_ne _ _ _ h]

@[simp] theorem Policy.setCls_cls (p : Policy) (c : Nat) (r : ClassRec) : (p.setCls c r).cls c = r := by
  simp [Policy.setCls, Policy.cls]

theorem Policy.setCls_cls_ne (p : Policy) {c k : Nat} (r : ClassRec) (h : k ≠ c) : (p.setCls c r).cls k = p.cls k := by
  simp [Policy.setCls, Policy.cls, Table.get_set_of_ne _ _ _ h]

@[simp] theorem Policy.setDomain_domain (p : Policy) (d : Nat) (r : DomainRec) : (p.setDomain d r).domain d = r := by
  simp [Policy.setDomain, Policy.domain]

theorem Policy.setDomain_domain_ne (p : Policy) {d k : Nat} (r : DomainRec) (h : k ≠ d) : (p.setDomain d r).domain k = p.domain k := by
  simp [Policy.setDomain, Policy.domain, Table.get_set_of_ne _ _ _ h]

@[simp] theorem Index.setItem_item (x : Index) (n : Nat) (r : ItemRec) : (x.setItem n r).item n = some r := by
  simp [Index.setItem, Index.item]

theorem Index.setItem_item_ne (x : Index) {n k : Nat} (r : ItemRec) (h : k ≠ n) : (x.setItem n r).item k = x.item k := by
  simp [Index.setItem, Index.item, Table.find_put_of_ne _ _ h]

/-- An insertion into a day's list, at its tail (R102 (1)). -/
theorem Index.insertDay_day (x : Index) (d i e : Nat) : (x.insertDay d i).day e = if e = d then x.day d ++ [i] else x.day e := by
  simp [Index.insertDay, Index.day, Table.get_set]

/-- A removal from a day's list, the order of the others kept (R102 (2)). -/
theorem Index.removeDay_day (x : Index) (d i e : Nat) :
    (x.removeDay d i).day e = if e = d then (x.day d).filter (fun j => j != i) else x.day e := by
  simp [Index.removeDay, Index.day, Table.get_set]

@[simp] theorem Hold.setMatter_matter (h : Hold) (m : Nat) (v : Matter) : (h.setMatter m v).matter m = v := by
  simp [Hold.setMatter, Hold.matter]

theorem Hold.setMatter_matter_ne (h : Hold) {m k : Nat} (v : Matter) (hk : k ≠ m) : (h.setMatter m v).matter k = h.matter k := by
  simp [Hold.setMatter, Hold.matter, Table.get_set_of_ne _ _ _ hk]

/-- Writing an entry of the Segment Table, read back by reference. -/
theorem Segs.put_entry (t : Segs) (r q : EntryRef) (e : SegEntry) : (t.put r e).entry q = if q = r then some e else t.entry q := by
  cases r <;> cases q <;> simp [Segs.put, Segs.entry, Table.find_put]

/-- Making an entry FREE, read back by reference. -/
theorem Segs.del_entry (t : Segs) (r q : EntryRef) : (t.del r).entry q = if q = r then none else t.entry q := by
  cases r <;> cases q <;> simp [Segs.del, Segs.entry, Table.find_del]

end Machine

end Sys2Proof
end

