-- ==== Sys2Proof/Laws/Events.lean ====
section
/-! SUPPORT. What the shared operations of an event do: notices, frames, the append of a record, the settling of media and drain,
and the acceptance of a request. One lemma says once everything that each can do to the link and the audit trail. -/

namespace Sys2Proof.Machine

/-! ### Frames other than replies -/

theorem Tells.refl (s : State) : Tells s s := ⟨⟨[], by simp⟩, fun _ h => h, rfl, rfl⟩

theorem Tells.trans {s t u : State} (h : Tells s t) (k : Tells t u) : Tells s u := by
  obtain ⟨⟨m1, e1, n1⟩, f1, p1, r1⟩ := h
  obtain ⟨⟨m2, e2, n2⟩, f2, p2, r2⟩ := k
  refine ⟨⟨m1 ++ m2, by rw [e2, e1, List.append_assoc], ?_⟩, fun n h => f2 n (f1 n h), p2.trans p1, r2.trans r1⟩
  intro f hf
  rcases List.mem_append.mp hf with h | h
  · exact n1 f h
  · exact n2 f h

/-- A state with the same link tells nothing. -/
theorem Tells.of_link {s t : State} (h : t.link = s.link) : Tells s t := by
  rw [show Tells s t ↔ Tells s s from by unfold Tells; rw [h]]
  exact Tells.refl s

theorem Link.raise_flags (en : BitVec 12) (n : Notice) (l : Link) (k : Nat) :
    (l.raise en n).flags.getLsbD k = (l.flags.getLsbD k || decide (k = n.bit)) := by
  have hb : n.bit < 12 := by cases n <;> decide
  unfold Link.raise
  split
  · rename_i h
    by_cases hk : k = n.bit
    · subst hk; simp [h]
    · simp [hk]
  · simp only [BitVec.getLsbD_or]
    congr 1
    by_cases hk : k = n.bit
    · subst hk; simp [hb]
    · simp only [hk, decide_false]
      rw [BitVec.getLsbD_shiftLeft]
      by_cases h12 : k < 12
      · by_cases hlt : k < n.bit
        · simp [hlt]
        · have : k - n.bit ≠ 0 := by omega
          simp [this, BitVec.getLsbD_one]
      · simp [h12]

theorem Link.raise_tx (en : BitVec 12) (n : Notice) (l : Link) :
    (l.raise en n).tx = if l.flags.getLsbD n.bit = false ∧ en.getLsbD n.bit = true then
      l.tx ++ [noticeFrame (l.raise en n).flags en] else l.tx := by
  unfold Link.raise
  cases h : l.flags.getLsbD n.bit <;> cases he : en.getLsbD n.bit <;> simp

theorem State.raise_tells (s : State) (n : Notice) : Tells s (s.raise n) := by
  refine ⟨?_, fun k h => ?_, ?_, ?_⟩
  · refine ⟨if s.link.flags.getLsbD n.bit = false ∧ s.settings.notices.getLsbD n.bit = true then
        [noticeFrame (s.link.raise s.settings.notices n).flags s.settings.notices] else [], ?_, ?_⟩
    · show (s.link.raise _ n).tx = _
      rw [Link.raise_tx]
      split <;> simp
    · intro f hf
      split at hf
      · rw [List.mem_singleton.mp hf]; simp [noticeFrame]
      · simp at hf
  · show (s.link.raise _ n).flags.getLsbD k = true
    rw [Link.raise_flags, h]; rfl
  · show (s.link.raise _ n).power = _
    unfold Link.raise; split <;> rfl
  · show (s.link.raise _ n).resetTaken = _
    unfold Link.raise; split <;> rfl

theorem State.raiseIf_tells (s : State) (c : Bool) (n : Notice) : Tells s (s.raiseIf c n) := by
  unfold State.raiseIf
  split
  · exact s.raise_tells n
  · exact .refl s

theorem State.emit_tells (s : State) (f : Frame) (h : f.ftype ≠ .reply) : Tells s (s.emit f) :=
  ⟨⟨[f], rfl, by simpa using h⟩, fun _ h => h, rfl, rfl⟩

theorem State.report_tells (s : State) (code : Nat) (p : List Field) : Tells s (s.report code p) :=
  s.emit_tells _ (by simp)

/-- A reply that an event of the part sends for itself is not covered by `Tells`; an answer puts it first. -/
theorem State.answer_replied {s t : State} (h : Tells s t) (tag : Byte) (code : Nat) (st : Status) (p : List Field) :
    Replied s (s.answer tag code st p t) tag code st p := by
  obtain ⟨⟨m, e, n⟩, f, q, r⟩ := h
  refine ⟨⟨m, ?_, n⟩, f, q, r⟩
  show s.link.tx ++ replyFrame tag code st p :: t.link.tx.drop s.link.tx.length = _
  rw [e, List.drop_left]

theorem State.reply_replied (s : State) (tag : Byte) (code : Nat) (st : Status) (p : List Field) :
    Replied s (s.reply tag code st p) tag code st p := ⟨⟨[], rfl, by simp⟩, fun _ h => h, rfl, rfl⟩

/-! ### Settling keeps the trail -/

/-- Two audit states agree in all but drain channel and held pages. -/
def Audit.sameTrail (a b : Audit) : Prop :=
  b.buffer = a.buffer ∧ b.counter = a.counter ∧ b.chain = a.chain ∧ b.map = a.map ∧ b.startOwed = a.startOwed

theorem Audit.sameTrail.refl (a : Audit) : a.sameTrail a := ⟨rfl, rfl, rfl, rfl, rfl⟩

theorem Audit.sameTrail.trans {a b c : Audit} (h : a.sameTrail b) (k : b.sameTrail c) : a.sameTrail c :=
  ⟨k.1.trans h.1, k.2.1.trans h.2.1, k.2.2.1.trans h.2.2.1, k.2.2.2.1.trans h.2.2.2.1, k.2.2.2.2.trans h.2.2.2.2⟩

theorem Audit.hold_sameTrail (a : Audit) (ps : List AuditPage) : a.sameTrail (a.hold ps) := ⟨rfl, rfl, rfl, rfl, rfl⟩

theorem Store.handBack_trail (s : Store) (i : ChanNo) : s.audit.sameTrail (s.handBack i).audit := s.audit.hold_sameTrail _

theorem Store.arbiter_trail (set : Settings) (s : Store) (i : ChanNo) : s.audit.sameTrail (s.arbiter set i).audit := by
  unfold Store.arbiter
  dsimp only
  split
  · split
    · exact .refl _
    · exact s.handBack_trail i
  · exact .refl _

theorem Store.whileSuspended_trail (s : Store) (i : ChanNo) (e : Erase) : s.audit.sameTrail (s.whileSuspended i e).audit := by
  unfold Store.whileSuspended
  dsimp only
  split
  · split
    · exact .refl _
    · split
      · exact s.handBack_trail i
      · exact s.handBack_trail i
  · split
    · exact .refl _
    · exact .refl _

theorem Store.dispatch_trail (set : Settings) (s : Store) (i : ChanNo) : s.audit.sameTrail (s.dispatch set i).audit := by
  unfold Store.dispatch
  dsimp only
  split
  · exact .refl _
  · split
    · exact .refl _
    · split
      · exact .refl _
      · split
        · exact s.whileSuspended_trail i _
        · split
          · exact .refl _
          · exact s.arbiter_trail set i

theorem Store.dispatchAll_trail (set : Settings) (s : Store) : s.audit.sameTrail (s.dispatchAll set).audit := by
  unfold Store.dispatchAll
  suffices h : ∀ (is : List ChanNo) (s : Store), s.audit.sameTrail (is.foldl (fun s i => s.dispatch set i) s).audit from h _ s
  intro is
  induction is with
  | nil => intro s; exact .refl _
  | cons i is ih => intro s; exact (s.dispatch_trail set i).trans (ih _)

theorem Store.chooseDrain_trail (s : Store) : s.audit.sameTrail s.chooseDrain.audit := by
  unfold Store.chooseDrain
  split
  · exact .refl _
  · split
    · exact ⟨rfl, rfl, rfl, rfl, rfl⟩
    · split
      · exact ⟨rfl, rfl, rfl, rfl, rfl⟩
      · exact ⟨rfl, rfl, rfl, rfl, rfl⟩

theorem Store.presentOne_trail (now : Nat) (s : Store) : s.audit.sameTrail (s.presentOne now).audit := by
  unfold Store.presentOne
  split
  · exact .refl _
  · dsimp only
    split
    · split
      · exact ⟨rfl, rfl, rfl, rfl, rfl⟩
      · split
        · exact ⟨rfl, rfl, rfl, rfl, rfl⟩
        · exact .refl _
    · exact .refl _

theorem Store.present_trail (now : Nat) (s : Store) : s.audit.sameTrail (s.present now).audit :=
  s.chooseDrain_trail.trans ((Store.presentOne_trail now _).trans ((Store.presentOne_trail now _).trans
    ((Store.presentOne_trail now _).trans (Store.presentOne_trail now _))))

/-- Settling the media and the drain keeps the buffer, the counters, the chain and the page map. -/
theorem Store.settle_trail (set : Settings) (now : Nat) (s : Store) : s.audit.sameTrail (s.settle set now).audit :=
  (s.present_trail now).trans ((Store.dispatchAll_trail set _).trans
    ((Store.present_trail now _).trans (Store.dispatchAll_trail set _)))

/-! ### The end of an event -/

theorem State.noteSpace_tells (s0 s : State) : Tells s (State.noteSpace s0 s) :=
  (s.raiseIf_tells _ _).trans (State.raiseIf_tells _ _ _)

theorem State.closeEvent_tells (s0 s : State) : Tells s (State.closeEvent s0 s) := by
  unfold State.closeEvent
  split
  · exact (Tells.of_link (t := s.withStore (s.store.settle s.settings s.timer)) rfl).trans (State.noteSpace_tells s0 _)
  · exact Tells.of_link rfl

/-- While requests are taken, the end of an event settles the media and the drain. -/
theorem State.closeEvent_store (s0 s : State) (h : s.taking = true) :
    (State.closeEvent s0 s).store = s.store.settle s.settings s.timer := by
  have hf := State.noteSpace_frame s0 (s.withStore (s.store.settle s.settings s.timer))
  have hm : (State.closeEvent s0 s).media = (s.store.settle s.settings s.timer).media := by
    unfold State.closeEvent
    rw [if_pos h]
    exact hf .media (by decide)
  have ha : (State.closeEvent s0 s).audit = (s.store.settle s.settings s.timer).audit := by
    unfold State.closeEvent
    rw [if_pos h]
    exact hf .audit (by decide)
  unfold State.store
  rw [hm, ha]
  rfl

/-- While requests are taken, the end of an event leaves the media and the drain settled. -/
theorem State.closeEvent_settles (s0 s : State) (h : s.taking = true) : Settles (State.closeEvent s0 s) s.media s.audit := by
  have hf := State.closeEvent_frame s0 s
  unfold Settles
  rw [State.closeEvent_store s0 s h, show (State.closeEvent s0 s).settings = s.settings from hf .settings (by decide),
    show (State.closeEvent s0 s).timer = s.timer from hf .timer (by decide)]
  rfl

/-- The end of an event keeps the trail. -/
theorem State.closeEvent_trail (s0 s : State) : s.audit.sameTrail (State.closeEvent s0 s).audit := by
  by_cases h : s.taking = true
  · have := State.closeEvent_store s0 s h
    have ha : (State.closeEvent s0 s).audit = (s.store.settle s.settings s.timer).audit := congrArg Store.audit this
    rw [ha]
    exact Store.settle_trail _ _ _
  · unfold State.closeEvent
    rw [if_neg h]
    exact .refl _

/-! ### The append of a record and the acceptance of a request -/

theorem State.append_tells (s : State) (kind : AuditKind) (subject : List Field) : Tells s (s.append kind subject) := by
  unfold State.append
  dsimp only
  refine Tells.trans ?_ (State.raiseIf_tells _ _ _)
  exact Tells.trans (Tells.of_link rfl) (State.raiseIf_tells _ _ _)

/-- Everything an accepted request does beyond its own effect: one reply before every other frame, one record, the HWM, and media
and drain settled; its own effect `t` tells nothing but notices and leaves the trail and the media. -/
theorem State.accept_accepted {s t : State} (tag : Byte) (code : Nat) (st : Status) (p : List Field) (kind : AuditKind)
    (subject : List Field) (ht : Tells s t) (hm : t.media = s.media) (ha : t.audit = s.audit) (hs : s.taking = true) :
    Accepted s (s.accept tag code st p kind subject t) tag code st p kind subject ∧
      (s.accept tag code st p kind subject t).clock = { t.clock with hwm := t.clock.counter } := by
  have hp : (t.append kind subject).taking = true := by
    have h1 := (ht.trans (t.append_tells kind subject)).2.2.1
    unfold State.taking at hs ⊢
    rw [h1]; exact hs
  have hc : (State.closeEvent s (t.append kind subject)).clock = { t.clock with hwm := t.clock.counter } := by
    rw [((State.closeEvent_frame s (t.append kind subject)) .clock (by decide) : _ = _), State.append_clock]
  have htr := State.closeEvent_trail s (t.append kind subject)
  rw [State.append_audit, ha] at htr
  have hst := State.closeEvent_store s (t.append kind subject) hp
  have hcc : (s.accept tag code st p kind subject t).clock.counter = t.clock.counter := by
    show (State.closeEvent s (t.append kind subject)).clock.counter = _
    rw [hc]
  have htt : (s.accept tag code st p kind subject t).timer = t.timer := by
    show (State.closeEvent s (t.append kind subject)).timer = _
    simp
  refine ⟨⟨State.answer_replied ((ht.trans (t.append_tells kind subject)).trans (State.closeEvent_tells s _)) _ _ _ _, ?_, ?_⟩, hc⟩
  · refine ⟨?_, ?_, ?_, ?_⟩
    · rw [hcc, htt]; exact htr.1
    · exact htr.2.1
    · rw [hcc, htt]; exact htr.2.2.1
    · rw [hcc]; exact congrArg Clock.hwm hc
  · have hse : (State.closeEvent s (t.append kind subject)).settings = (t.append kind subject).settings :=
      (State.closeEvent_frame s (t.append kind subject)) .settings (by decide)
    unfold Settles
    rw [hcc, htt]
    show (State.closeEvent s (t.append kind subject)).store =
      Store.settle (State.closeEvent s (t.append kind subject)).settings t.timer _
    rw [hst, hse, State.append_timer]
    congr 1
    unfold State.store
    rw [State.append_audit, ha, ((State.append_frame t kind subject) .media (by decide) : _ = _), hm]

/-! ### Uploads that end -/

/-- With nobody waiting the media stay as the dead pages leave them (R61). -/
@[simp] theorem Media.handedOver_nil (m : Media) (set : Settings) (ref : EntryRef) (e : SegEntry) : m.handedOver set ref e [] = m := rfl

/-- With a waiter the media are those of its placement, or as they were where none is granted (R60). -/
@[simp] theorem Media.handedOver_cons (m : Media) (set : Settings) (ref : EntryRef) (e : SegEntry) (w : SlotRef) (ws : List SlotRef) :
    m.handedOver set ref e (w :: ws) = ((m.place set e.loc.count ref).map (·.1)).getD m := rfl

/-- What a handover leaves of the media (R60, R61). -/
theorem State.handover_media (cause : EndCause) (ref : EntryRef) (e : SegEntry) (ws : List SlotRef) (s : State) :
    (State.handover cause ref e ws s).media = s.media.handedOver s.settings ref e ws := by
  induction ws generalizing s with
  | nil => rfl
  | cons w ws ih =>
    have hm : ∀ x : State, ((x.emptySlot w).reportFailed w 5 cause.code).media = x.media ∧
        ((x.emptySlot w).reportFailed w 5 cause.code).settings = x.settings := fun x => by
      unfold State.reportFailed State.emptySlot; repeat' split
      all_goals exact ⟨rfl, rfl⟩
    have hs : ∀ x : State, (State.startSending x w).media = x.media := fun x => by
      unfold State.startSending State.setSlot; repeat' split
      all_goals rfl
    unfold State.handover
    cases hp : s.media.place s.settings e.loc.count ref with
    | some p => simp [hs, hp]
    | none =>
      simp only [ih, hm]
      cases ws <;> simp [hp]

/-- Step (3) of R44 over a context's slots is the failure of its uploads in slot order. -/
theorem State.giveUpUpload_foldl (cause : EndCause) (slots : List Slot) (k : Nat) (s : State) :
    (slots.zipIdx k).foldl (State.giveUpUpload cause) s = s.uploadsFail cause (slots.filterMap Slot.uploading) := by
  induction slots generalizing k s with
  | nil => rfl
  | cons v vs ih =>
    rw [List.zipIdx_cons, List.foldl_cons, ih]
    cases v <;> simp only [List.filterMap_cons, Slot.uploading, State.uploadsFail, List.foldl_cons, State.giveUpUpload] <;>
      cases s.segs.entry _ <;> rfl

/-! ### Slots of a disposed item -/

/-- Everything that giving up one slot's reference does (R65, R66): nothing for an entry that is FREE; the entry FREE, counted and its
pages dead where it is STORED, not pinned, and the reference its last with no claim; one ref less otherwise, unless it is pinned. -/
theorem State.dropSlotRef_cases (s : State) (n : Nat) (r : EntryRef) (u : State × Nat) (hu : u = State.dropSlotRef (s, n) r) :
    (s.segs.entry r = none ∧ u = (s, n)) ∨
    (∃ e, s.segs.entry r = some e ∧ (e.stored = true ∧ e.pinned = false ∧ e.refs ≤ 1 ∧ e.claims = 0) ∧ u.2 = n + 1 ∧
      u.1.media = s.media.deadPages e.loc ∧ ∀ ref, u.1.segs.entry ref = if ref = r then none else s.segs.entry ref) ∨
    (∃ e, s.segs.entry r = some e ∧ ¬(e.stored = true ∧ e.pinned = false ∧ e.refs ≤ 1 ∧ e.claims = 0) ∧ u.2 = n ∧
      u.1.media = s.media ∧ ∀ ref, u.1.segs.entry ref =
        if ref = r then some { e with refs := if e.pinned then e.refs else e.refs - 1 } else s.segs.entry ref) := by
  subst hu
  cases he : s.segs.entry r with
  | none => left; simp [State.dropSlotRef, Segs.dropRef, State.freeIdle, he]
  | some e =>
    right
    by_cases hf : e.stored = true ∧ e.pinned = false ∧ e.refs ≤ 1 ∧ e.claims = 0
    · left
      obtain ⟨h1, h2, h3, h4⟩ := hf
      have h5 : e.refs - 1 = 0 := by omega
      refine ⟨e, rfl, ⟨h1, h2, h3, h4⟩, ?_⟩
      simp only [State.dropSlotRef, Segs.dropRef, State.freeIdle, he, Segs.put_entry, h1, h2, h4, h5]
      simp [Segs.put_entry, Segs.del_entry]
      intro ref; split <;> rfl
    · right
      refine ⟨e, rfl, hf, ?_⟩
      have h : ¬(e.stored = true ∧ (if e.pinned = true then e.refs else e.refs - 1) = 0 ∧ e.claims = 0 ∧ e.pinned = false) := by
        rintro ⟨a, b, c, d⟩
        simp only [d, Bool.false_eq_true, if_false] at b
        exact hf ⟨a, d, by omega, c⟩
      simp [State.dropSlotRef, Segs.dropRef, State.freeIdle, he, Segs.put_entry, h]

end Sys2Proof.Machine
end

