-- ==== Sys2Proof/Laws/Settle.lean ====
section
/-! SUPPORT. What settling the media and the drain leaves of a channel: it issues operations, moves pages between queues and opens,
fills and closes audit zones, and changes nothing else. -/

namespace Sys2Proof.Machine

/-- Two channels agree in what settling leaves: state, mark, owed fence, uploads, filling pages, fail count, probe and its write
point. -/
def Channel.sameBody (c d : Channel) : Prop :=
  d.state = c.state ∧ d.markFenced = c.markFenced ∧ d.fenceOwed = c.fenceOwed ∧ d.uploads = c.uploads ∧ d.filling = c.filling ∧
    d.fails = c.fails ∧ d.probe = c.probe ∧ d.probeWp = c.probeWp

theorem Channel.sameBody.refl (c : Channel) : c.sameBody c := ⟨rfl, rfl, rfl, rfl, rfl, rfl, rfl, rfl⟩

theorem Channel.sameBody.trans {a b c : Channel} (h : a.sameBody b) (k : b.sameBody c) : a.sameBody c :=
  ⟨k.1.trans h.1, k.2.1.trans h.2.1, k.2.2.1.trans h.2.2.1, k.2.2.2.1.trans h.2.2.2.1, k.2.2.2.2.1.trans h.2.2.2.2.1,
    k.2.2.2.2.2.1.trans h.2.2.2.2.2.1, k.2.2.2.2.2.2.1.trans h.2.2.2.2.2.2.1, k.2.2.2.2.2.2.2.trans h.2.2.2.2.2.2.2⟩

theorem Channel.setZone_body (c : Channel) (z : Nat) (v : Zone) : c.sameBody (c.setZone z v) := .refl c

theorem Channel.suspendCheck_body (c : Channel) : c.sameBody c.suspendCheck := by
  unfold Channel.suspendCheck
  split
  · split
    · exact .refl c
    · exact .refl c
  · exact .refl c

theorem Channel.pushRead_body (c : Channel) (r : PageRead) : c.sameBody (c.pushRead r) :=
  Channel.sameBody.trans (b := { c with readQ := c.readQ ++ [r] }) (.refl c) (Channel.suspendCheck_body _)

theorem Channel.pushAudit_body (c : Channel) (p : AuditPage) : c.sameBody (c.pushAudit p) :=
  Channel.sameBody.trans (b := { c with auditQ := c.auditQ ++ [p] }) (.refl c) (Channel.suspendCheck_body _)

theorem Channel.closeAudit_body (c : Channel) : c.sameBody c.closeAudit := by
  unfold Channel.closeAudit
  split
  · exact c.setZone_body _ _
  · exact .refl c

theorem Channel.issueAudit_body {c d : Channel} (h : c.issueAudit = some d) : c.sameBody d := by
  unfold Channel.issueAudit at h
  split at h
  · cases h
  · split at h
    · cases h; exact .refl c
    · obtain ⟨b, -, rfl⟩ := Option.map_eq_some_iff.mp h
      exact .refl c

theorem Channel.issueRead_body (c : Channel) : c.sameBody c.issueRead := by
  unfold Channel.issueRead; split <;> exact .refl c

theorem Channel.issueIngest_body (c : Channel) : c.sameBody c.issueIngest := by
  unfold Channel.issueIngest; split <;> exact .refl c

theorem Channel.issueErase_body (c : Channel) : c.sameBody c.issueErase := by
  unfold Channel.issueErase; split <;> exact .refl c

theorem Channel.grant_body {c d : Channel} (h : c.grant = some d) : c.sameBody d := by
  unfold Channel.grant at h
  split at h
  · cases h; exact c.issueRead_body
  · split at h
    · cases h; exact c.issueIngest_body
    · split at h
      · cases h; exact c.issueErase_body
      · cases h

theorem Channel.arbitrate_body (fresh : Credits) (c : Channel) : c.sameBody (c.arbitrate fresh) := by
  unfold Channel.arbitrate
  split
  · exact Channel.grant_body ‹_›
  · split
    · exact Channel.sameBody.trans (b := { c with credits := fresh }) (.refl c) (Channel.grant_body ‹_›)
    · exact .refl c

/-- Two media agree in what settling leaves of every channel. -/
def Media.sameBody (m n : Media) : Prop := (∀ i, (m.get i).sameBody (n.get i)) ∧ n.last = m.last

theorem Media.sameBody.refl (m : Media) : m.sameBody m := ⟨fun _ => .refl _, rfl⟩

theorem Media.sameBody.trans {a b c : Media} (h : a.sameBody b) (k : b.sameBody c) : a.sameBody c :=
  ⟨fun i => (h.1 i).trans (k.1 i), k.2.trans h.2⟩

theorem Media.set_body (m : Media) (i : ChanNo) {c : Channel} (h : (m.get i).sameBody c) : m.sameBody (m.set i c) := by
  refine ⟨fun j => ?_, m.set_last i c⟩
  rw [Media.get_set]
  split
  · subst j; exact h
  · exact .refl _

theorem Store.handBack_body (s : Store) (i : ChanNo) : s.media.sameBody (s.handBack i).media := s.media.set_body i (.refl _)

theorem Store.arbiter_body (set : Settings) (s : Store) (i : ChanNo) : s.media.sameBody (s.arbiter set i).media := by
  unfold Store.arbiter
  dsimp only
  split
  · split
    · exact s.media.set_body i (Channel.issueAudit_body ‹_›)
    · exact (s.handBack_body i).trans (Media.set_body _ i (Channel.arbitrate_body _ _))
  · exact s.media.set_body i (Channel.arbitrate_body _ _)

theorem Store.whileSuspended_body (s : Store) (i : ChanNo) (e : Erase) : s.media.sameBody (s.whileSuspended i e).media := by
  unfold Store.whileSuspended
  dsimp only
  split
  · split
    · exact s.media.set_body i (Channel.issueAudit_body ‹_›)
    · refine (s.handBack_body i).trans ?_
      split
      · exact Media.set_body _ i (Channel.issueRead_body _)
      · exact Media.set_body _ i (.refl _)
  · split
    · exact Media.set_body _ i (Channel.issueRead_body _)
    · exact Media.set_body _ i (.refl _)

/-- A module is due to be asked exactly when it is owed the question, idle, and at no erase that it was at before the link reset. -/
theorem Channel.askDue_iff (c : Channel) :
    c.askDue = true ↔ c.askOwed = true ∧ c.op = none ∧ ∀ e, c.erase = some e → e.askAfter = false := by
  cases he : c.erase <;> simp [Channel.askDue, he, and_assoc]

theorem Channel.ask_body (c : Channel) : c.sameBody c.ask := by
  unfold Channel.ask; split <;> exact .refl c

/-- Asking the idle modules leaves each channel as settling does. -/
theorem Media.ask_body (m : Media) : m.sameBody m.ask := by
  refine ⟨fun i => ?_, rfl⟩
  match i with
  | 0 => exact m.c0.ask_body
  | 1 => exact m.c1.ask_body
  | 2 => exact m.c2.ask_body
  | 3 => exact m.c3.ask_body

theorem Store.dispatch_body (set : Settings) (s : Store) (i : ChanNo) : s.media.sameBody (s.dispatch set i).media := by
  unfold Store.dispatch
  dsimp only
  split
  · exact .refl _
  · split
    · exact s.media.set_body i (Channel.ask_body _)
    · split
      · exact .refl _
      · split
        · exact s.whileSuspended_body i _
        · split
          · exact .refl _
          · exact s.arbiter_body set i

theorem Store.dispatchAll_body (set : Settings) (s : Store) : s.media.sameBody (s.dispatchAll set).media := by
  show s.media.sameBody ((((s.dispatch set 0).dispatch set 1).dispatch set 2).dispatch set 3).media
  exact (((s.dispatch_body set 0).trans (Store.dispatch_body set _ 1)).trans (Store.dispatch_body set _ 2)).trans
    (Store.dispatch_body set _ 3)

theorem Store.chooseDrain_body (s : Store) : s.media.sameBody s.chooseDrain.media := by
  unfold Store.chooseDrain
  split
  · exact .refl _
  · split
    · exact .refl _
    · split
      · exact .refl _
      · exact s.media.set_body _ (Channel.closeAudit_body _)

theorem Store.presentOne_body (now : Nat) (s : Store) : s.media.sameBody (s.presentOne now).media := by
  unfold Store.presentOne
  split
  · exact .refl _
  · dsimp only
    split
    · split
      · exact s.media.set_body _ (Channel.pushAudit_body _ _)
      · split
        · exact s.media.set_body _ (Channel.pushAudit_body _ _)
        · exact .refl _
    · exact .refl _

theorem Store.present_body (now : Nat) (s : Store) : s.media.sameBody (s.present now).media :=
  (((s.chooseDrain_body.trans (Store.presentOne_body now _)).trans (Store.presentOne_body now _)).trans
    (Store.presentOne_body now _)).trans (Store.presentOne_body now _)

/-- Settling leaves each channel's state, mark, owed fence, uploads, filling pages, fail count and probe, and the last channel of a
placement. -/
theorem Store.settle_body (set : Settings) (now : Nat) (s : Store) : s.media.sameBody (s.settle set now).media :=
  (((s.present_body now).trans (Store.dispatchAll_body set _)).trans (Store.present_body now _)).trans
    (Store.dispatchAll_body set _)

/-! ### A store with one of its channels replaced -/

@[simp] theorem Store.put_get (s : Store) (i : ChanNo) (c : Channel) : (s.put i c).media.get i = c := s.media.get_set_self i c

theorem Store.put_get_of_ne (s : Store) {i j : ChanNo} (c : Channel) (h : j ≠ i) : (s.put i c).media.get j = s.media.get j :=
  s.media.get_set_of_ne c h

@[simp] theorem Store.put_audit (s : Store) (i : ChanNo) (c : Channel) : (s.put i c).audit = s.audit := rfl

end Sys2Proof.Machine
end

