-- ==== Sys2Proof/Tests/Slice0.lean ====
section
/-! SUPPORT. Tests of the model: ill-formed terms that WellFormed refuses, values worked out from the spec, frames written out from the
spec's layouts, single steps on small states, and a witness for every statement that has hypotheses. Expected values come from
the spec's text and tables, or from hand calculation from them; the digest and the check value of the CRC are the public
standards' own. -/

namespace Sys2Proof.Tests

open Sys2Proof Sys2Proof.Machine

-- one theorem at a time: the memory the check allows is less than all of them take at once
set_option Elab.async false

/-! ### Helpers -/

/-- The state a command answers with; the state itself where it answers with none. -/
def after (i : Instr) (s : State) : State := match exec i s with | .next t => t | _ => s

/-- A blank part that takes requests. -/
def ready : State := { State.reset with link := { State.reset.link with power := .on } }

/-- A part that takes requests, at archive second 1,000,000,000: day 11,574, second 6,400 (TABLE 0-3). -/
def running : State := { ready with clock := { ready.clock with state := .running, counter := 1000000000, hwm := 999999999 } }

/-- The status of the last frame formed. -/
def lastStatus (s : State) : Option Status := s.link.tx.getLast?.map (·.status)

/-- An audit record of a sequence number. -/
def recAt (n : Nat) : Record := { seq := n, since := 0, second := 0, kind := .startUp, subject := [], chain := 0 }

/-- A list of `n` equal values. -/
def many {α : Type} (n : Nat) (v : α) : List α := List.replicate n v

theorem length_many {α : Type} (n : Nat) (v : α) : (many n v).length = n := List.length_replicate

/-- A part with no free audit slot. -/
def full (s : State) : State :=
  { s with audit := { s.audit with buffer := many 2048 (recAt 0), counter := 2048 } }

/-! ### WellFormed refuses -/

theorem test_wf_ref : (Instr.itemCommit 0 (.fields { ctx := 256, gen := 0 })).wf = false ∧
    (Instr.itemAbort 0 (.fields { ctx := 0, gen := 65536 })).wf = false := by decide

theorem test_wf_itemOpen :
    (Instr.itemOpen 0 (.fields { domain := 256, segCount := 1, sent := 0, tags := 0, event := none, parties := [] })).wf = false ∧
    (Instr.itemOpen 0 (.fields { domain := 0, segCount := 65536, sent := 0, tags := 0, event := none, parties := [] })).wf = false ∧
    (Instr.itemOpen 0 (.fields
      { domain := 0, segCount := 1, sent := 18446744073709551616, tags := 0, event := none, parties := [] })).wf = false ∧
    (Instr.itemOpen 0 (.fields
      { domain := 0, segCount := 1, sent := 0, tags := 0, event := none, parties := List.replicate 517 0 })).wf = false := by
  decide +kernel

theorem test_wf_segments :
    (Instr.segDeclare 0 (.fields { ref := ⟨256, 0⟩, slot := 0, digest := 0, length := 1 })).wf = false ∧
    (Instr.segDeclare 0 (.fields { ref := ⟨0, 0⟩, slot := 65536, digest := 0, length := 1 })).wf = false ∧
    (Instr.segDeclare 0 (.fields { ref := ⟨0, 0⟩, slot := 0, digest := 0, length := 4294967296 })).wf = false ∧
    (Instr.segData 0 (.fields { ref := ⟨0, 65536⟩, slot := 0, offset := 0, data := [] })).wf = false ∧
    (Instr.segData 0 (.fields { ref := ⟨0, 0⟩, slot := 65536, offset := 0, data := [] })).wf = false ∧
    (Instr.segData 0 (.fields { ref := ⟨0, 0⟩, slot := 0, offset := 4294967296, data := [] })).wf = false ∧
    (Instr.segData 0 (.fields { ref := ⟨0, 0⟩, slot := 0, offset := 0, data := List.replicate 4150 0 })).wf = false := by
  decide +kernel

theorem test_wf_reads :
    (Instr.itemRead 0 (.fields 16777216)).wf = false ∧
    (Instr.itemSegments 0 (.fields { item := 16777216, first := 0, count := 0 })).wf = false ∧
    (Instr.itemSegments 0 (.fields { item := 0, first := 65536, count := 0 })).wf = false ∧
    (Instr.itemSegments 0 (.fields { item := 0, first := 0, count := 4294967296 })).wf = false ∧
    (Instr.segRead 0 (.fields { item := 16777216, slot := 0, offset := 0, count := 0 })).wf = false ∧
    (Instr.segRead 0 (.fields { item := 0, slot := 65536, offset := 0, count := 0 })).wf = false ∧
    (Instr.segRead 0 (.fields { item := 0, slot := 0, offset := 4294967296, count := 0 })).wf = false ∧
    (Instr.segRead 0 (.fields { item := 0, slot := 0, offset := 0, count := 65536 })).wf = false ∧
    (Instr.segVerify 0 (.fields { item := 16777216, slot := 0 })).wf = false ∧
    (Instr.segVerify 0 (.fields { item := 0, slot := 65536 })).wf = false := by decide

theorem test_wf_clock :
    (Instr.clockSet 0 (.fields 18446744073709551616)).wf = false ∧
    (Instr.clockAdjust 0 (.fields 18446744073709551616)).wf = false := by decide

/-- A class definition of the tests: INGEST anchor, one year. -/
def oneYear : ClassDef := { anchor := .ingest, py := 1, pm := 0, pd := 0, fd := 0, permanent := false }

theorem test_wf_policy :
    (Instr.classSet 0 (.fields { cls := 256, defn := oneYear })).wf = false ∧
    (Instr.classSet 0 (.fields { cls := 0, defn := { oneYear with py := 256 } })).wf = false ∧
    (Instr.classSet 0 (.fields { cls := 0, defn := { oneYear with pm := 256 } })).wf = false ∧
    (Instr.classSet 0 (.fields { cls := 0, defn := { oneYear with pd := 65536 } })).wf = false ∧
    (Instr.classSet 0 (.fields { cls := 0, defn := { oneYear with fd := 65536 } })).wf = false ∧
    (Instr.classClear 0 (.fields 256)).wf = false ∧ (Instr.classRead 0 (.fields 256)).wf = false ∧
    (Instr.domainSet 0 (.fields ⟨256, true, 0, 0, 0, 0⟩)).wf = false ∧
    (Instr.domainSet 0 (.fields ⟨0, true, 256, 0, 0, 0⟩)).wf = false ∧
    (Instr.domainSet 0 (.fields ⟨0, true, 0, 256, 0, 0⟩)).wf = false ∧
    (Instr.domainSet 0 (.fields ⟨0, true, 0, 0, 65536, 0⟩)).wf = false ∧
    (Instr.domainSet 0 (.fields ⟨0, true, 0, 0, 0, 4294967296⟩)).wf = false ∧
    (Instr.domainRead 0 (.fields 256)).wf = false ∧ (Instr.policyRead 0 (.fields 65536)).wf = false ∧
    (Instr.policyWrite 0 (.fields { entry := 65536, content := .unused })).wf = false ∧
    (Instr.policyWrite 0 (.fields { entry := 0, content := .used (.tag 4294967296) true .ret })).wf = false ∧
    (Instr.policyWrite 0 (.fields { entry := 0, content := .used .always true (.goto 4294967296) })).wf = false := by decide

theorem test_wf_policyOperands :
    [PolicyTest.domain 4294967296, .tag 4294967296, .partiesAtLeast 4294967296, .segmentsAtLeast 4294967296,
      .sizeAtLeast 4294967296, .itemFlag 4294967296, .archiveFlag 4294967296].all (fun t => !t.wf) = true ∧
    [PolicyAction.cls 4294967296, .goto 4294967296, .call 4294967296].all (fun a => !a.wf) = true := by decide

theorem test_wf_index :
    (Instr.eventPost 0 (.fields { key := 0, day := 4294967296 })).wf = false ∧
    (Instr.eventRead 0 (.fields { key := 0, first := 4294967296, count := 0 })).wf = false ∧
    (Instr.eventRead 0 (.fields { key := 0, first := 0, count := 4294967296 })).wf = false := by decide

theorem test_wf_holds :
    (Instr.matterOpen 0 (.fields { matter := 256, body := ⟨0, none, false⟩ })).wf = false ∧
    (Instr.matterAmend 0 (.fields { matter := 0, body := ⟨0, some (4294967296, 0), false⟩ })).wf = false ∧
    (Instr.matterAmend 0 (.fields { matter := 0, body := ⟨0, some (0, 4294967296), false⟩ })).wf = false ∧
    (Instr.matterClose 0 (.fields 256)).wf = false ∧ (Instr.matterRead 0 (.fields 256)).wf = false ∧
    (Instr.custodianRead 0 (.fields 4294967296)).wf = false := by decide

theorem test_wf_dispo :
    (Instr.dispoList 0 (.fields { first := 4294967296, count := 0 })).wf = false ∧
    (Instr.dispoList 0 (.fields { first := 0, count := 4294967296 })).wf = false ∧
    (Instr.dispoRelease 0 (.fields { first := 16777216, n := 0 })).wf = false ∧
    (Instr.dispoRelease 0 (.fields { first := 0, n := 4294967296 })).wf = false := by decide

theorem test_wf_rest :
    (Instr.channelStatus 0 (.fields 256)).wf = false ∧ (Instr.channelProbe 0 (.fields 256)).wf = false ∧
    (Instr.auditRead 0 (.fields { first := 281474976710656, count := 0 })).wf = false ∧
    (Instr.auditRead 0 (.fields { first := 0, count := 4294967296 })).wf = false ∧
    (Instr.settingSet 0 (.fields { setting := 256, value := 0 })).wf = false ∧
    (Instr.settingSet 0 (.fields { setting := 0, value := 4294967296 })).wf = false ∧
    (Instr.settingGet 0 (.fields 256)).wf = false ∧ (Instr.unknownRequest 0 0x2C).wf = false ∧
    (Instr.contextTimeout 16).wf = false ∧ (Instr.readComplete 0 (some [0])).wf = false := by decide

/-! ### Values worked out from the spec -/

/-- The check value of the CRC-32 of R191, over the nine bytes "123456789". -/
theorem test_crc32 : crc32 [0x31, 0x32, 0x33, 0x34, 0x35, 0x36, 0x37, 0x38, 0x39] = 0xCBF43926 := by decide +kernel

/-- The SHA-256 value of "abc" (the public standard's example). -/
theorem test_sha256 : sha256 [0x61, 0x62, 0x63] =
    0xba7816bf8f01cfea414140de5dae2223b00361a396177a9cb410ff61f20015ad := by decide +kernel

/-- The first and the last of the constants of FIPS 180-4, and the first word of the initial value. -/
theorem test_shaConstants : shaK.head? = some 0x428a2f98 ∧ shaK.getLast? = some 0xc67178f2 ∧ shaInit.head? = some 0x6a09e667 := by
  decide +kernel

/-- The ends of the archive's days (section 0.5.2) and the dates of a leap day and of the century year (section 1.7). -/
theorem test_dates : dateOf 0 = (2000, 1, 1) ∧ dateOf 73048 = (2199, 12, 31) ∧ dateOf 59 = (2000, 2, 29) ∧
    dayNumber 2000 3 1 = 60 ∧ dateOf 11574 = (2031, 9, 9) ∧ dayNumber 2100 3 1 = dayNumber 2100 2 28 + 1 := by decide +kernel

/-- Month-end clamp: one month from 2031-01-31 is 2031-02-28 (R22). -/
theorem test_monthEnd : periodExpiry { oneYear with py := 0, pm := 1 } 0 (dayNumber 2031 1 31) = .day (dayNumber 2031 2 28) := by
  decide +kernel

/-- Each of the eight combinations of a flag, its set bit and its clear bit (R85). -/
theorem test_maskFlags : maskFlags 0b01010101 0b00110011 0b00001111 = 0b01110010 := by decide

/-- The bucket number of a content whose first 17 bits are all ones, in group 15: 131,071 + 61,485 modulo 131,072 (R52). -/
theorem test_bucket : bucketOf (BitVec.allOnes 256) 15 = 61484 := by decide +kernel

/-- The worked cases 1 to 3 of section 1.10 and rows 3 to 8 of TABLE 1-6. -/
theorem test_classExpiry :
    classExpiry { anchor := .sent, py := 1, pm := 1, pd := 10, fd := 400, permanent := false } 8801 8796 none = (.day 9201, false) ∧
    classExpiry oneYear 8825 0 none = (.day 9190, false) ∧
    classExpiry { anchor := .event, py := 0, pm := 0, pd := 30, fd := 60, permanent := false } 8801 0 (some (some 8700)) =
      (.day 8861, false) ∧
    classExpiry { anchor := .event, py := 0, pm := 0, pd := 90, fd := 0, permanent := false } 8801 0 none = (.day 8891, true) ∧
    (classExpiry { oneYear with py := 10 } (dayNumber 2190 6 30) 0 none).1 = .never ∧
    (classExpiry { oneYear with py := 0, pm := 2 } (dayNumber 2199 11 15) 0 none).1 = .never ∧
    (classExpiry { oneYear with py := 0, pd := 40 } 73018 0 none).1 = .never ∧
    (classExpiry { oneYear with py := 0, fd := 100 } 73000 0 none).1 = .never ∧
    (classExpiry { oneYear with py := 0, pd := 48 } 73000 0 none).1 = .day 73048 := by decide +kernel

/-! ### Frames written out byte by byte, with the CRC trailer computed outside the model -/

/-- TABLE 10-9. -/
theorem test_frame_itemOpen : receive
    [0x01, 0x21, 0x01, 0x00, 0x00, 0x2A, 0x03, 0x01, 0x00, 0x02, 0x00, 0x02, 0x00, 0x00, 0x00, 0x00, 0x3B, 0x9A, 0xCA,
    0x00, 0x80, 0x00, 0x00, 0x01, 0x11, 0x22, 0x33, 0x44, 0x55, 0x66, 0x77, 0x88, 0x00, 0x00, 0x00, 0x00, 0x00,
    0x00, 0x00, 0x05, 0xFF, 0x00, 0x00, 0x00, 0x00, 0x00, 0x00, 0x06, 0xCF, 0x6F, 0x6C, 0xA6] =
    .itemOpen 0x21 (.fields
      { domain := 3, segCount := 2, sent := 1000000000, tags := 0x80000001, event := some 0x1122334455667788
        parties := [5, 0xFF00000000000006] }) := by
  decide +kernel

/-- TABLE 10-10. -/
theorem test_frame_segData : receive
    [0x01, 0x22, 0x03, 0x00, 0x00, 0x0E, 0x04, 0x01, 0x02, 0x00, 0x07, 0x00, 0x00, 0x40, 0x00, 0x00, 0x03, 0x61, 0x62,
    0x63, 0x69, 0x71, 0x84, 0x06] =
    .segData 0x22 (.fields { ref := ⟨4, 0x0102⟩, slot := 7, offset := 16384, data := [0x61, 0x62, 0x63] }) := by
  decide +kernel

/-- R74, R75. -/
theorem test_frame_classSet : receive
    [0x01, 0x23, 0x0D, 0x00, 0x00, 0x09, 0x3F, 0x02, 0x96, 0x0B, 0x03, 0xE7, 0x0E, 0x42, 0x01, 0x82, 0xB8, 0x46, 0x49] =
    .classSet 0x23 (.fields
      { cls := 63, defn := { anchor := .event, py := 150, pm := 11, pd := 999, fd := 3650, permanent := true } }) := by
  decide +kernel

/-- R106. -/
theorem test_frame_eventPost : receive
    [0x01, 0x24, 0x15, 0x00, 0x00, 0x0C, 0x01, 0x02, 0x03, 0x04, 0x05, 0x06, 0x07, 0x08, 0x00, 0x00, 0x2D, 0x36, 0x4F,
    0xE1, 0xA6, 0x1A] =
    .eventPost 0x24 (.fields { key := 0x0102030405060708, day := 11574 }) := by
  decide +kernel

/-- R117, R118. -/
theorem test_frame_matterOpen : receive
    [0x01, 0x25, 0x18, 0x00, 0x00, 0x0D, 0x3F, 0x80, 0x01, 0x01, 0x00, 0x00, 0x00, 0x64, 0x00, 0x00, 0x00, 0xC8, 0x01,
    0x7B, 0x2E, 0xF5, 0xC0] =
    .matterOpen 0x25 (.fields { matter := 63, body := { domains := 0x8001, range := some (100, 200), allParties := true } }) := by
  decide +kernel

/-- R144. -/
theorem test_frame_dispoRelease : receive
    [0x01, 0x26, 0x20, 0x00, 0x00, 0x07, 0x01, 0x02, 0x03, 0x00, 0x00, 0x01, 0x00, 0x1C, 0xB3, 0x86, 0xFF] =
    .dispoRelease 0x26 (.fields { first := 0x010203, n := 256 }) := by
  decide +kernel

/-- R177. -/
theorem test_frame_channelStatus : receive
    [0x01, 0x27, 0x22, 0x00, 0x00, 0x01, 0x03, 0x1A, 0xA1, 0xFD, 0xDB] =
    .channelStatus 0x27 (.fields 3) := by
  decide +kernel

/-- R187. -/
theorem test_frame_auditRead : receive
    [0x01, 0x28, 0x24, 0x00, 0x00, 0x0A, 0x01, 0x02, 0x03, 0x04, 0x05, 0x06, 0x00, 0x00, 0x00, 0x10, 0x4A, 0x36, 0x93,
    0xA5] =
    .auditRead 0x28 (.fields { first := 0x010203040506, count := 16 }) := by
  decide +kernel

/-- R8. -/
theorem test_frame_clockSet : receive
    [0x01, 0x11, 0x0B, 0x00, 0x00, 0x08, 0x00, 0x00, 0x00, 0x00, 0x3B, 0x9A, 0xCA, 0x00, 0x09, 0xD4, 0x9C, 0xBA] =
    .clockSet 0x11 (.fields 1000000000) := by
  decide +kernel

/-- R198. -/
theorem test_frame_settingSet : receive
    [0x01, 0x13, 0x27, 0x00, 0x00, 0x05, 0x04, 0x00, 0x00, 0x01, 0x02, 0xD2, 0x58, 0xDC, 0xB3] =
    .settingSet 0x13 (.fields { setting := 4, value := 258 }) := by
  decide +kernel

/-- R196. -/
theorem test_frame_noticeClear : receive
    [0x01, 0x14, 0x2B, 0x00, 0x00, 0x02, 0x0F, 0xF0, 0x6E, 0xD3, 0xA8, 0x62] =
    .noticeClear 0x14 (.fields 0x0FF0) := by
  decide +kernel

/-- R86. -/
theorem test_frame_policyWrite : receive
    [0x01, 0x15, 0x12, 0x00, 0x00, 0x0E, 0x01, 0xFF, 0x01, 0x05, 0x00, 0x00, 0x04, 0x00, 0x01, 0x01, 0x00, 0x00, 0x03,
    0x05, 0xE2, 0x5C, 0xE7, 0xCB] =
    .policyWrite 0x15 (.fields { entry := 511, content := .used (.sizeAtLeast 1024) false (.flags 3 5) }) := by
  decide +kernel

/-! ### Single steps: the device, the clock and the settings -/

/-- An unknown code is answered UNKNOWN_REQUEST, a dropped frame with nothing. -/
theorem test_unknown : lastStatus (after (.unknownRequest 7 0x2D) ready) = some .unknownRequest ∧
    after (.frameDropped [1, 2]) ready = ready := by decide +kernel

/-- A malformed payload is answered BAD_FIELD; a request that arrives while no request is taken is dropped. -/
theorem test_malformed : lastStatus (after (.segRead 7 .malformed) ready) = some .badField ∧
    after (.segRead 7 .malformed) State.reset = State.reset := by decide +kernel

/-- A power-on of a blank part finds the time base lost and asks the four modules to identify themselves. -/
theorem test_powerOn : (after .powerOn State.reset).link.power = .starting [0, 1, 2, 3] .powerOn ∧
    (after .powerOn State.reset).link.flags = 0x400 ∧ (after .powerOn State.reset).clock.lost = false := by decide +kernel

/-- The last module's answer ends the start-up of a blank part: GENESIS, then START_UP. -/
theorem test_identifyComplete :
    let s := after (.identifyComplete 3 true) { after .powerOn State.reset with
      link := { (after .powerOn State.reset).link with power := .starting [3] .powerOn } }
    s.link.power = .on ∧ s.audit.buffer.map (·.kind) = [.genesis, .startUp] ∧ s.audit.counter = 2 := by decide +kernel

/-- The loss of power keeps the counter and the flash's zones, and loses the contexts. -/
theorem test_powerLoss : (after .powerLoss running).link.power = .off ∧ (after .powerLoss running).clock = running.clock := by
  decide +kernel

/-- RESET is answered OK and the link reset follows; with none taken a link reset does nothing. -/
theorem test_reset : lastStatus (after (.reset 1 (.fields ())) ready) = some .ok ∧
    (after (.reset 1 (.fields ())) ready).link.resetTaken = true ∧ after .linkReset ready = ready := by decide +kernel

/-- IDENTIFY carries the six bytes "KC2300", the revision 1.0 and 38 entries of 24 bytes. -/
theorem test_identify : (fieldBytes (identifyFields false)).take 11 =
    [0x4B, 0x43, 0x32, 0x33, 0x30, 0x30, 0x01, 0x00, 0x00, 0x00, 38] ∧
    (fieldBytes (identifyFields false)).length = 11 + 38 * 24 := by decide +kernel

/-- NOTICE_CLEAR clears the named flags only. -/
theorem test_noticeClear : (after (.noticeClear 1 (.fields 0x0800)) { ready with
    link := { ready.link with flags := 0xC00 } }).link.flags = 0x400 := by decide +kernel

/-- SETTING_SET of READ_WEIGHT to 15; 0 is out of its range. -/
theorem test_settingSet : (after (.settingSet 1 (.fields { setting := 6, value := 15 })) ready).settings.readWeight = 15 ∧
    lastStatus (after (.settingSet 1 (.fields { setting := 6, value := 0 })) ready) = some .badField := by decide +kernel

/-- SETTING_GET of RELEASE_GRACE: 30, range 0 to 365, blank value 30, no restriction in TRIAL mode (TABLE 10-5). -/
theorem test_settingGet : ((after (.settingGet 1 (.fields 3)) ready).link.tx.map (fun f => f.payload.map (·.value))) =
    [[30, 0, 365, 30, 0]] := by decide +kernel

/-- COMPLIANCE_ENTER, and a COMPLIANCE_LEAVE that finds no item. -/
theorem test_compliance : (after (.complianceEnter 1 (.fields ())) ready).compliant = true ∧
    (after (.complianceLeave 1 (.fields ())) { ready with compliant := true }).compliant = false := by decide +kernel

/-- CLOCK_READ writes the HWM and carries the date: day 11,574 is 2031-09-09. -/
theorem test_clockRead : (after (.clockRead 1 (.fields ())) running).clock.hwm = 1000000000 ∧
    ((after (.clockRead 1 (.fields ())) running).link.tx.map (fun f => (f.payload.map (·.value)).take 5)) =
      [[1000000000, 11574, 2031, 9, 9]] := by decide +kernel

/-- CLOCK_SET in TRIAL mode, and its ceiling of 31 days past the HWM in COMPLIANT mode (TABLE 1-2). -/
theorem test_clockSet : (after (.clockSet 1 (.fields 5000000)) ready).clock.counter = 5000000 ∧
    (after (.clockSet 1 (.fields 5000000)) { ready with compliant := true }).clock.counter = 2678400 := by decide +kernel

/-- CLOCK_ADJUST forward by the 300 seconds of the allowance, and backward into a hold of 100 seconds. -/
theorem test_clockAdjust : (after (.clockAdjust 1 (.fields 1000000400)) running).clock.counter = 1000000300 ∧
    (after (.clockAdjust 1 (.fields 999999900)) running).clock.hold = 100 := by decide +kernel

/-- A second of RUNNING, and a second of UNSET. -/
theorem test_second : (after .timeBaseSecond running).clock.counter = 1000000001 ∧
    (after .timeBaseSecond ready).clock.counter = 0 := by decide +kernel

/-- The last second of a hold. -/
theorem test_holdEnd : (after .holdEnd { running with clock := { running.clock with state := .held, hold := 1 } }).clock.state =
    .running := by decide +kernel

/-- One second before midnight: powered, the HWM is written and DAY_ROLLOVER raised; unpowered, neither. -/
theorem test_dayRollover :
    let s : State := { running with clock := { running.clock with counter := 86399, hwm := 0, used := 9, lost := false } }
    (after .dayRollover s).clock.hwm = 86400 ∧ (after .dayRollover s).link.flags = 0x800 ∧
      (after .dayRolloverUnpowered { s with link := { s.link with power := .off } }).clock.hwm = 0 ∧
      (after .dayRolloverUnpowered { s with link := { s.link with power := .off } }).clock.used = 0 := by decide +kernel

/-- The time base reports loss while powered: UNSET with the counter in the HWM. -/
theorem test_timeBaseLoss : (after .timeBaseLoss running).clock.state = .unset ∧
    (after .timeBaseLoss running).clock.hwm = 1000000000 := by decide +kernel

/-! ### Single steps: ingest -/

/-- The SHA-256 value of "abc". -/
def abc : Digest := 0xba7816bf8f01cfea414140de5dae2223b00361a396177a9cb410ff61f20015ad

/-- The first way of its bucket in group 0: the digest's first 17 bits are 0xBA78 and a 0 bit, 95,472; 8 ways a bucket. -/
def abcRef : EntryRef := .bucket 763776

theorem test_abcBucket : bucketOf abc 0 = 95472 ∧ waysOf (bucketOf abc 0) = (List.range 8).map (fun w => .bucket (763776 + w)) := by
  decide +kernel

/-- The declaration of "abc". -/
def decl : Decl := { digest := abc, length := 3, ref := abcRef }

/-- The envelope of the tests. -/
def env : Envelope := { domain := 0, parties := [7], sent := 999990000, tags := 0, event := none, segCount := 1 }

/-- A part at work: class 0 keeps one year, domain 0 is ACTIVE, and the policy list assigns class 0. -/
def working : State := { running with policy := {
  classes := [(0, { state := .defined oneYear, inUse := 0 })]
  domains := [(0, { active := true, group := 0, fallback := some 0, start := 0, backdate := 30 })]
  entries := [(0, .used .always true (.cls 0)), (1, .used .always true .stop)]
  flags := 0 } }

/-- Context 0 of a part, open under generation 1 with one slot. -/
def withSlot (s : State) (v : Slot) (committing : Bool) : State := { s with ingest := {
  ctxs := [(0, { gen := 1, body := some { committing, env, group := 0, slots := [v], deadline := .running 120 } })]
  ready := match v with | .ready _ => if committing then [0] else [] | _ => [] } }

/-- The entry of "abc" at the first page of zone 0 of channel 0. -/
def entry (stored : Bool) (claims refs : Nat) (owner : Option SlotRef) (waiters : List SlotRef) : SegEntry :=
  { stored, digest := abc, group := 0, length := 3, loc := ⟨0, 0, 0, 1⟩, refs, pinned := false, claims, owner, waiters }

/-- A part whose Segment Table holds one entry, with its page in an INGEST_OPEN zone. -/
def withEntry (s : State) (e : SegEntry) : State := { s with
  segs := { s.segs with buckets := [(763776, e)] }
  media := s.media.set 0 { s.media.get 0 with zones := [(0, { state := .ingestOpen, wp := 1, live := 1, owed := false })] } }

/-- Slot 0 of context 0. -/
def slot0 : SlotRef := { ctx := 0, gen := 1, slot := 0 }

/-- The upload of "abc". -/
def upload : Upload := { ref := abcRef, zone := 0, first := 0, count := 1, passed := 0 }

/-- A part to which "abc" is being sent. -/
def sending : State :=
  let s := withEntry (withSlot working (.sending decl 0 Sha.start) false) (entry false 0 0 (some slot0) [])
  { s with media := s.media.set 0 { s.media.get 0 with uploads := [upload] } }

/-- A part whose module 0 is programming the page of "abc". -/
def writing : State :=
  let s := withEntry (withSlot working (.writing decl) false) (entry false 0 0 (some slot0) [])
  { s with media := s.media.set 0 { s.media.get 0 with
    uploads := [upload], op := some (.programIngest { zone := 0, page := 0, data := [0x61, 0x62, 0x63] } true) } }

/-- A part whose context 0 has its one slot READY. -/
def committable (committing : Bool) : State := withEntry (withSlot working (.ready decl) committing) (entry true 1 0 none [])

/-- ITEM_OPEN takes context 0 under generation 1; UNSET comes first among its refusals. -/
theorem test_itemOpen :
    let q : ItemOpen := { domain := 0, segCount := 1, sent := 0, tags := 0, event := none, parties := [7] }
    ((after (.itemOpen 1 (.fields q)) working).ingest.ctx 0).gen = 1 ∧
      lastStatus (after (.itemOpen 1 (.fields q)) ready) = some .clockUnset := by decide +kernel

/-- SEG_DECLARE of a new content: SEND, with a placement on the channel after channel 3; of a STORED one: KNOWN with a claim. -/
theorem test_segDeclare :
    let q : SegDeclare := { ref := ⟨0, 1⟩, slot := 0, digest := abc, length := 3 }
    let s := after (.segDeclare 1 (.fields q)) (withSlot working .empty false)
    let t := after (.segDeclare 1 (.fields q)) (withEntry (withSlot working .empty false) (entry true 0 1 none []))
    (lastStatus s = some .send ∧ ((s.media.get 0).zone 0).wp = 1 ∧ (s.segs.entry abcRef).map (·.owner) = some (some slot0)) ∧
      lastStatus t = some .known ∧ (t.segs.entry abcRef).map (·.claims) = some 1 := by decide +kernel

/-- SEG_DATA of the bytes "abc" matches the digest: WRITING, and the module takes the page. -/
theorem test_segData :
    let s := after (.segData 1 (.fields { ref := ⟨0, 1⟩, slot := 0, offset := 0, data := [0x61, 0x62, 0x63] })) sending
    lastStatus s = some .accepted ∧ ((s.ingest.ctx 0).body.map (·.slots)) = some [.writing decl] ∧
      (s.media.get 0).op = some (.programIngest { zone := 0, page := 0, data := [0x61, 0x62, 0x63] } true) := by decide +kernel

/-- SEG_DATA of the bytes "abd" does not: the slot becomes EMPTY and the entry FREE. -/
theorem test_segData_mismatch :
    let s := after (.segData 1 (.fields { ref := ⟨0, 1⟩, slot := 0, offset := 0, data := [0x61, 0x62, 0x64] })) sending
    s.link.tx.head?.map (·.status) = some .digestMismatch ∧ ((s.ingest.ctx 0).body.map (·.slots)) = some [.empty] ∧
      s.segs.entry abcRef = none := by decide +kernel

/-- The PROGRAM of the last page passes: the entry is STORED with one claim and the slot READY; it fails: MEDIA. Where the context waits
to be committed, SEGMENT_READY is sent and then COMMITTED. -/
theorem test_programComplete :
    ((after (.programComplete 0 true) writing).segs.entry abcRef).map (fun e => (e.stored, e.claims)) = some (true, 1) ∧
      (after (.programComplete 0 false) writing).segs.entry abcRef = none ∧
      ((after (.programComplete 0 false) writing).media.get 0).fails = 1 ∧
      (after (.programComplete 0 true) { writing with ingest := (withSlot working (.writing decl) true).ingest }).link.tx.map (·.code) =
        [0x01, 0x04] := by decide +kernel

/-- ITEM_COMMIT on 2031-09-09 under one year: item 1, expiry 2032-09-09, day 11,574 + 366. -/
theorem test_itemCommit :
    let s := after (.itemCommit 1 (.fields ⟨0, 1⟩)) (committable false)
    (s.index.item 1).map (fun r => (r.expiry, r.classes)) = some (.day 11940, [0]) ∧ s.index.day 11940 = [1] ∧
      (s.segs.entry abcRef).map (fun e => (e.claims, e.refs)) = some (0, 1) ∧ (s.policy.cls 0).inUse = 1 := by decide +kernel

/-- ITEM_COMMIT while a slot is not READY is pending. -/
theorem test_itemCommit_pending :
    lastStatus (after (.itemCommit 1 (.fields ⟨0, 1⟩)) (withSlot working (.writing decl) false)) = some .commitPending := by
  decide +kernel

/-- The deferred commit, and its COMMITTED report. -/
theorem test_deferredCommit :
    let s := after .deferredCommit (committable true)
    s.index.next = 2 ∧ s.ingest.ready = [] ∧ s.link.tx.map (·.code) = [0x04] := by decide +kernel

/-- ITEM_ABORT gives back the claim, and the entry that nothing references becomes FREE. -/
theorem test_itemAbort :
    let s := after (.itemAbort 1 (.fields ⟨0, 1⟩)) (committable false)
    (s.ingest.ctx 0) = { gen := 1, body := none } ∧ s.segs.entry abcRef = none := by decide +kernel

/-- The idle timeout gives the context up and sends CONTEXT_ENDED. -/
theorem test_contextTimeout :
    let s := after (.contextTimeout 0) (withSlot working .empty false)
    (s.ingest.ctx 0).body = none ∧ s.link.tx.map (·.code) = [0x05] ∧ s.timer = 120 := by decide +kernel

/-! ### Single steps: items and their content -/

/-- A live item of the tests, with the entry of "abc" in its one slot. -/
def live (st : LiveState) : LiveItem := { state := st, sentDay := 11573, tags := 0, flags := 0, holdMask := 0, holdCount := 0
                                          event := none, parties := [7], segs := [{ digest := abc, length := 3, ref := abcRef }] }

/-- The record of item 1, committed at second 968,400,000 (day 11,208) under class 0. -/
def item (st : LiveState) (e : Expiry) : ItemRec :=
  { domain := 0, commitSecond := 968400000, classes := [0], expiry := e
    remarks := { policyFault := false, classLimit := false, noEventKey := false, sentClamped := false }, fingerprint := 0
    body := .live (live st) }

/-- What a record holds while it is not a tombstone. -/
def liveOf (r : ItemRec) : Option LiveItem := match r.body with | .live l => some l | .disposed _ => none

/-- The tombstone of item 1. -/
def tomb : ItemRec := { item .released (.day 1) with body := .disposed 5 }

/-- A part that holds one item in the place of its state. -/
def holding (st : LiveState) (e : Expiry) : State :=
  let s := withEntry working (entry true 0 1 none [])
  { s with
    policy := { s.policy with classes := [(0, { state := .defined oneYear, inUse := 1 })] }
    index := { s.index with
      items := [(1, item st e)], next := 2
      calendar := match st, e with | .retained, .day d => [(d, [1])] | _, _ => [] }
    dispo := { s.dispo with
      queue := if st = .eligible then [{ item := 1, day := 11570 }] else []
      list := if st = .released then [1] else []
      batch := some { auto := false, second := 0, size := 1, disposed := 0, held := 0, retained := 0 } } }

/-- The same part with the item's record a tombstone. -/
def holdingTomb : State := { holding .retained .never with index := { State.reset.index with items := [(1, tomb)], next := 2 } }

/-- ITEM_READ of an item not assigned, of a live item, and ITEM_SEGMENTS of a tombstone. -/
theorem test_itemReads : lastStatus (after (.itemRead 1 (.fields 1)) ready) = some .notFound ∧
    lastStatus (after (.itemRead 1 (.fields 1)) (holding .retained (.day 11940))) = some .ok ∧
    lastStatus (after (.itemSegments 1 (.fields ⟨1, 0, 1⟩)) holdingTomb) = some .gone := by decide +kernel

/-- SEG_READ queues the read of the one page, which the idle module takes at once. -/
theorem test_segRead : ((after (.segRead 1 (.fields ⟨1, 0, 1, 2⟩)) (holding .retained (.day 11940))).media.get 0).op =
    some (.read { zone := 0, page := 0, who := .segRead 0 0 }) := by decide +kernel

/-- SEG_VERIFY takes verify place 0 and reads the first page. -/
theorem test_segVerify : ((after (.segVerify 1 (.fields ⟨1, 0⟩)) (holding .retained (.day 11940))).media.get 0).op =
    some (.read { zone := 0, page := 0, who := .verify 0 }) := by decide +kernel

/-- A SEG_READ in flight of the second and third byte of "abc", and a verify in flight whose page's first bytes are "abc". -/
def reading (who : Requester) : State :=
  let s := holding .retained (.day 11940)
  { s with
    segs := { s.segs with
      reads := [{ id := 0, tag := 9, item := 1, skip := 1, count := 2, parts := [.pending] }], nextRead := 1
      verifies := [{ place := 0, tag := 9, item := 1, digest := abc, length := 3, loc := ⟨0, 0, 0, 1⟩, next := 0, sha := Sha.start
                     waiting := false }] }
    media := s.media.set 0 { s.media.get 0 with op := some (.read { zone := 0, page := 0, who }) } }

/-- READ_COMPLETE: the two bytes asked for; MATCH for the verify; nothing where nobody waits. -/
theorem test_readComplete :
    ((after (.readComplete 0 (some [0x61, 0x62, 0x63, 0])) (reading (.segRead 0 0))).link.tx.map
      (fun f => (f.status, f.payload.map (·.value)))) = [(.ok, [0x62, 0x63])] ∧
    lastStatus (after (.readComplete 0 (some [0x61, 0x62, 0x63, 0])) (reading (.verify 0))) = some .matched ∧
    (after (.readComplete 0 none) (reading .none)).link.tx = [] := by decide +kernel

/-- A waiting verify queues its read once a place is free. -/
theorem test_verifyReadQueued :
    let s := reading (.verify 0)
    let w : State := { s with segs := { s.segs with verifyWait := [0] } }
    ((after (.verifyReadQueued 0) w).media.get 0).readQ = [{ zone := 0, page := 0, who := .verify 0 }] ∧
      (after (.verifyReadQueued 0) w).segs.verifyWait = [] := by decide +kernel

/-! ### Single steps: policy, events and sweeps -/

/-- CLASS_SET of a class in use presents its sweep; a LOCKED class is not shortened. -/
theorem test_classSet :
    (after (.classSet 1 (.fields { cls := 0, defn := { oneYear with py := 2 } })) (holding .retained (.day 11940))).index.sweeps =
      [.cls 0] ∧
    lastStatus (after (.classSet 1 (.fields { cls := 0, defn := { oneYear with py := 0, pm := 11 } })) { working with
      policy := { working.policy with classes := [(0, { state := .locked oneYear, inUse := 1 })] } }) = some .locked := by
  decide +kernel

/-- CLASS_CLEAR of a class that an ACTIVE domain names as its fallback, and of an UNDEFINED one. -/
theorem test_classClear : lastStatus (after (.classClear 1 (.fields 0)) working) = some .inUse ∧
    lastStatus (after (.classClear 1 (.fields 1)) working) = some .unchanged := by decide +kernel

/-- CLASS_READ, DOMAIN_READ and POLICY_READ past their tables, and at their last entry. -/
theorem test_policyReads :
    [lastStatus (after (.classRead 1 (.fields 64)) working), lastStatus (after (.classRead 1 (.fields 63)) working),
      lastStatus (after (.domainRead 1 (.fields 16)) working), lastStatus (after (.domainRead 1 (.fields 15)) working),
      lastStatus (after (.policyRead 1 (.fields 512)) working), lastStatus (after (.policyRead 1 (.fields 511)) working)] =
    [some .badField, some .ok, some .badField, some .ok, some .badField, some .ok] := by decide +kernel

/-- DOMAIN_SET of a new domain; its fallback class must not be UNDEFINED. -/
theorem test_domainSet :
    ((after (.domainSet 1 (.fields ⟨15, true, 2, 0, 511, 3650⟩)) working).policy.domain 15).group = 2 ∧
    lastStatus (after (.domainSet 1 (.fields ⟨15, true, 2, 1, 0, 0⟩)) working) = some .badField := by decide +kernel

/-- POLICY_WRITE, and one that changes nothing. -/
theorem test_policyWrite :
    (after (.policyWrite 1 (.fields { entry := 511, content := .used .always false .ret })) working).policy.entry 511 =
      .used .always false .ret ∧
    lastStatus (after (.policyWrite 1 (.fields { entry := 511, content := .unused })) working) = some .unchanged := by decide +kernel

/-- ARCHIVE_FLAGS toggles a flag that both masks name. -/
theorem test_archiveFlags : (after (.archiveFlags 1 (.fields { set := 3, clear := 1 })) working).policy.flags = 3 ∧
    (after (.archiveFlags 1 (.fields { set := 0, clear := 8 })) working).policy.flags = 0 := by decide +kernel

/-- EVENT_POST of a later day is clamped to today. -/
theorem test_eventPost :
    (after (.eventPost 1 (.fields { key := 9, day := 20000 })) working).index.event 9 = some { posted := some 11574, items := [] } ∧
    lastStatus (after (.eventRead 1 (.fields { key := 9, first := 0, count := 1 })) working) = some .notFound := by decide +kernel

/-- A part whose sweep queue's head runs at item 1. -/
def sweeping (s : State) (r : SweepReq) (cursor limit : Nat) : State :=
  { s with index := { s.index with sweeps := [r], run := some { limit, cursor, changed := 0 } } }

/-- SWEEP_STATUS of a running sweep: one request, kind 1 CLASS, target 0, running, limit 1, cursor 1, changed 0. -/
theorem test_sweepStatus :
    ((after (.sweepStatus 1 (.fields ())) (sweeping (holding .retained (.day 11940)) (.cls 0) 1 1)).link.tx.map
      (fun f => f.payload.map (·.value))) = [[1, 1, 0, 0, 1, 1, 0]] := by decide +kernel

/-- A CLASS sweep step on an ELIGIBLE item of day 11,208 under two years: 2030-09-08 gives 2032-09-08, day 11,939, later than
today, so the item leaves the queue for the calendar. -/
theorem test_classSweepStep :
    let h := holding .eligible (.day 11573)
    let s := after .classSweepStep (sweeping { h with
      policy := { h.policy with classes := [(0, { state := .defined { oneYear with py := 2 }, inUse := 1 })] } } (.cls 0) 1 1)
    (s.index.item 1).map (·.expiry) = some (.day 11939) ∧ s.index.day 11939 = [1] ∧ s.dispo.queue = [] := by decide +kernel

/-- An EVENT sweep step on a PENDING item whose key is posted with day 11,500: one year after 2031-06-27. -/
theorem test_eventSweepStep :
    let h := holding .retained .pending
    let s := after .eventSweepStep (sweeping { h with
      policy := { h.policy with classes := [(0, { state := .defined { oneYear with anchor := .event }, inUse := 1 })] }
      index := { h.index with
        items := [(1, { item .retained .pending with body := .live { live .retained with event := some 9 } })]
        events := [(9, { posted := some 11500, items := [1] })] } } (.event 9) 0 1)
    (s.index.item 1).map (·.expiry) = some (.day 11866) ∧ s.index.day 11866 = [1] := by decide +kernel

/-- A matter that covers every item of domain 0. -/
def allOf0 : MatterFields := { domains := 1, range := none, allParties := true }

/-- A part with matter 5 in a state. -/
def withMatter (s : State) (v : Matter) : State := { s with hold := { s.hold with matters := [(5, v)] } }

/-- A HOLD sweep step on an ELIGIBLE item that the matter covers: EXPIRED_HELD, and out of the queue (TABLE 6-2). -/
theorem test_holdSweepStep :
    let s := after .holdSweepStep (sweeping (withMatter (holding .eligible (.day 11573)) (.active allOf0)) (.hold 5) 1 1)
    s.dispo.queue = [] ∧ ((s.index.item 1).bind liveOf).map (fun l => (l.state, l.holdMask, l.holdCount)) =
      some (.expiredHeld, 0x20, 1) := by decide +kernel

/-- The completion of a LIFTING matter's sweep makes the matter FREE and takes it out of the custodians' masks. -/
theorem test_sweepCompletion :
    let h := withMatter (holding .retained (.day 11940)) (.lifting allOf0)
    let s := after .sweepCompletion (sweeping { h with
      hold := { h.hold with custodians := [(0, { key := 7, mask := 0x20 }), (1, { key := 8, mask := 0x21 })] } } (.hold 5) 2 1)
    s.hold.matter 5 = .free ∧ s.hold.custodians = [(1, { key := 8, mask := 0x01 })] ∧ s.index.sweeps = [] := by decide +kernel

/-! ### Single steps: holds and disposition -/

/-- MATTER_OPEN, and one whose range ends before it begins. -/
theorem test_matterOpen :
    (after (.matterOpen 1 (.fields { matter := 5, body := allOf0 })) working).hold.matter 5 = .active allOf0 ∧
    lastStatus (after (.matterOpen 1 (.fields { matter := 5, body := { allOf0 with range := some (2, 1) } })) working) =
      some .badField := by decide +kernel

/-- MATTER_AMEND of an ACTIVE matter, and of a FREE one. -/
theorem test_matterAmend :
    (after (.matterAmend 1 (.fields { matter := 5, body := { allOf0 with domains := 2 } }))
      (withMatter working (.active allOf0))).hold.matter 5 = .active { allOf0 with domains := 2 } ∧
    lastStatus (after (.matterAmend 1 (.fields { matter := 5, body := allOf0 })) working) = some .badContext := by decide +kernel

/-- MATTER_CLOSE makes an ACTIVE matter LIFTING. -/
theorem test_matterClose : (after (.matterClose 1 (.fields 5)) (withMatter working (.active allOf0))).hold.matter 5 =
    .lifting allOf0 := by decide +kernel

/-- CUSTODIAN_SET takes position 0 and presents a sweep of the ACTIVE matter; MATTER_READ and the custodian reads see it. -/
theorem test_custodianSet :
    let s := after (.custodianSet 1 (.fields { key := 7, mask := 0x21 })) (withMatter working (.active allOf0))
    s.hold.custodians = [(0, { key := 7, mask := 0x21 })] ∧ s.index.sweeps = [.hold 5] := by decide +kernel

/-- The reads of chapter 6 on a part with one custodian. -/
theorem test_holdReads :
    let s : State := { working with hold := { working.hold with custodians := [(0, { key := 7, mask := 0x21 })] } }
    [lastStatus (after (.matterRead 1 (.fields 63)) s), lastStatus (after (.matterRead 1 (.fields 64)) s),
      lastStatus (after (.custodianFind 1 (.fields 7)) s), lastStatus (after (.custodianFind 1 (.fields 8)) s),
      lastStatus (after (.custodianRead 1 (.fields 4095)) s), lastStatus (after (.custodianRead 1 (.fields 4096)) s)] =
    [some .ok, some .badField, some .ok, some .notFound, some .ok, some .badField] := by decide +kernel

/-- DUE_PROCESSING of an item that is due: ELIGIBLE under today, with DISPO_READY. -/
theorem test_dueProcessing :
    let s := after .dueProcessing (holding .retained (.day 11574))
    s.dispo.queue = [{ item := 1, day := 11574 }] ∧ s.index.calendar = [] ∧ s.link.flags = 0x80 := by decide +kernel

/-- DISPO_RELEASE of the head, and of an item that is not the head. -/
theorem test_dispoRelease :
    let s := after (.dispoRelease 1 (.fields { first := 1, n := 256 })) (holding .eligible (.day 11573))
    s.dispo.list = [1] ∧ s.dispo.queue = [] ∧ s.link.tx.map (·.status) = [.clamped] ∧
      lastStatus (after (.dispoRelease 1 (.fields { first := 2, n := 1 })) (holding .eligible (.day 11573))) = some .stale := by
  decide +kernel

/-- DISPO_LIST and DISPO_STATUS. -/
theorem test_dispoReads :
    ((after (.dispoList 1 (.fields { first := 0, count := 64 })) (holding .eligible (.day 11573))).link.tx.map
      (fun f => f.payload.map (·.value))) = [[1, 1, 0, 1, 11570]] ∧
    lastStatus (after (.dispoStatus 1 (.fields ())) working) = some .ok := by decide +kernel

/-- AUTO_RELEASE: day 11,570 plus a grace of 4 is today. -/
theorem test_autoRelease :
    let h := holding .eligible (.day 11573)
    let s := after .autoRelease { h with
      settings := { h.settings with auto := true, grace := 4 }, dispo := { h.dispo with opportunity := true } }
    s.dispo.list = [1] ∧ s.dispo.opportunity = false := by decide +kernel

/-- DISPOSAL_EVENT: the tombstone, the entry FREE, the class no longer in use, DISPOSAL_DONE. -/
theorem test_disposalEvent :
    let s := after .disposalEvent (holding .released (.day 11573))
    (s.index.item 1).map (·.body) = some (.disposed 1000000000) ∧ s.segs.entry abcRef = none ∧ (s.policy.cls 0).inUse = 0 ∧
      s.dispo.list = [] ∧ s.link.flags = 0x100 := by decide +kernel

/-- DISPOSAL_EVENT under a matter that covers the item: EXPIRED_HELD. -/
theorem test_disposalEvent_held :
    let s := after .disposalEvent (withMatter (holding .released (.day 11573)) (.active allOf0))
    ((s.index.item 1).bind liveOf).map (·.state) = some .expiredHeld ∧
      s.dispo.batch.map (·.held) = some 1 := by decide +kernel

/-! ### Single steps: media and audit -/

/-- A part whose channel 0 is as given. -/
def withChan (f : Channel → Channel) : State := { working with media := working.media.set 0 (f (working.media.get 0)) }

/-- CHANNEL_STATUS past the last channel, and CHANNEL_PROBE of a channel IN_SERVICE. -/
theorem test_channelRequests : lastStatus (after (.channelStatus 1 (.fields 4)) working) = some .badField ∧
    lastStatus (after (.channelStatus 1 (.fields 3)) working) = some .ok ∧
    lastStatus (after (.channelProbe 1 (.fields 3)) working) = some .badContext := by decide +kernel

/-- ERASE_COMPLETE: BLANK on PASS, RETIRED with the record owed on FAIL. -/
theorem test_eraseComplete :
    let s := withChan (fun c => { c with
      op := some (.erase 3), erase := some ⟨3, .running, 0, false, false⟩, zones := [(3, { state := .reclaiming, wp := 9, live := 0, owed := false })] })
    (((after (.eraseComplete 0 true) s).media.get 0).zone 3) = Zone.blank ∧
      (((after (.eraseComplete 0 false) s).media.get 0).zone 3).owed = true := by decide +kernel

/-- SUSPEND_COMPLETE: with a read waiting the read is issued while the erase is SUSPENDED; a FAIL sets the mark. -/
theorem test_suspendComplete :
    let s := withChan (fun c => { c with
      op := some .suspend, erase := some ⟨3, .suspending, 1, false, false⟩, readQ := [{ zone := 0, page := 0, who := .none }] })
    ((after (.suspendComplete 0 true) s).media.get 0).op = some (.read { zone := 0, page := 0, who := .none }) ∧
      ((after (.suspendComplete 0 false) s).media.get 0).erase = some ⟨3, .running, 1, true, false⟩ := by decide +kernel

/-- RESUME_COMPLETE: the erase runs again. -/
theorem test_resumeComplete :
    let s := withChan (fun c => { c with op := some .resume, erase := some ⟨3, .resuming, 1, false, false⟩ })
    ((after (.resumeComplete 0 true) s).media.get 0).op = some (.erase 3) ∧
      ((after (.resumeComplete 0 false) s).media.get 0).erase = none := by decide +kernel

/-- OPERATION_TIMEOUT: OFFLINE with the mark FENCED and the record owed. -/
theorem test_operationTimeout :
    let c := (after (.operationTimeout 0) writing).media.get 0
    c.state = .offline ∧ c.markFenced = true ∧ c.fenceOwed = some .timeout ∧ c.op = none := by decide +kernel

/-- PROBE_START: the PROGRAM at the probe zone's write point, or its ERASE where the zone is used up. -/
theorem test_probeStart :
    let s := fun wp => withChan (fun c => { c with
      state := .fenced, markFenced := true, probeWp := wp, probe := some { tag := 4, stage := .waiting } })
    ((after (.probeStart 0) (s 7)).media.get 0).op = some (.probeProgram 7) ∧
      ((after (.probeStart 0) (s 4096)).media.get 0).op = some .probeErase := by decide +kernel

/-- CHANNEL_RESTORE: IN_SERVICE again, with MATCH to the probe's tag. -/
theorem test_channelRestore :
    let s := after (.channelRestore 0) (withChan (fun c => { c with
      state := .fenced, markFenced := true, probe := some { tag := 4, stage := .restoring } }))
    (s.media.get 0).state = .inService ∧ s.link.tx.map (fun f => (f.tag, f.status)) = [(4, .matched)] := by decide +kernel

/-- OWED_MEDIA_RECORD: the fence record goes first. -/
theorem test_owedMediaRecord :
    let s := after .owedMediaRecord (withChan (fun c => { c with state := .fenced, markFenced := true, fenceOwed := some .timeout }))
    s.audit.buffer.map (fun r => (r.kind, r.subject.map (·.value))) = [(.channelFenced, [0, 1])] ∧
      (s.media.get 0).fenceOwed = none := by decide +kernel

/-- START_UP_RECORD. -/
theorem test_startUpRecord :
    let s := after .startUpRecord { working with audit := { working.audit with
      startOwed := some { cause := .powerOn, intact := true, clock := .running, second := 3 } } }
    s.audit.buffer.map (fun r => (r.kind, r.subject.map (·.value))) = [(.startUp, [0, 1, 1, 3])] ∧ s.audit.startOwed = none := by
  decide +kernel

/-- AUDIT_PAGE_WAIT: a page of the one undrained record is programmed on channel 0, 5 seconds after its append. -/
theorem test_auditPageWait :
    let s := after .auditPageWait { working with audit := { working.audit with buffer := [recAt 0], counter := 1 } }
    (s.media.get 0).op = some (.programAudit 0 0 { first := 0, count := 1 } true) ∧ s.timer = 5 := by decide +kernel

/-- AUDIT_READ from the buffer, and past the last record; AUDIT_HEAD. -/
theorem test_auditReads :
    let s : State := { working with audit := { working.audit with buffer := [recAt 0], counter := 1 } }
    [lastStatus (after (.auditRead 1 (.fields { first := 0, count := 16 })) s),
      lastStatus (after (.auditRead 1 (.fields { first := 1, count := 16 })) s),
      lastStatus (after (.auditHead 1 (.fields ())) s)] = [some .ok, some .notFound, some .ok] := by decide +kernel

/-! ### Witnesses: states and operands that meet the hypotheses of each statement -/

/-- Context 0 with given contents, under generation 1. -/
def withOpen (s : State) (o : OpenCtx) : State := { s with ingest := { ctxs := [(0, { gen := 1, body := some o })], ready := [] } }

/-- A part with channel 0 as given and in a state of its own. -/
def chan (s : State) (f : Channel → Channel) : State := { s with media := s.media.set 0 (f (s.media.get 0)) }

/-- A part that has lost its power. -/
def dark (s : State) : State := { s with link := { s.link with power := .off } }

theorem full_slotFree (s : State) : (full s).slotFree = false := by
  show decide ((many 2048 (recAt 0)).length < Config.auditBuffer) = false
  rw [length_many]; rfl

theorem firstFree_none {α : Type} (t : Table α) (n : Nat) :
    ∀ k, (∀ j, k ≤ j → j < k + n → (Table.find t j).isSome = true) → Table.firstFree t k n = none := by
  induction n with
  | zero => intro k _; rfl
  | succ n ih =>
    intro k h
    have h0 := h k (by omega) (by omega)
    simp only [Table.firstFree]
    rw [if_neg (by simp [Option.isSome_iff_ne_none.mp h0])]
    exact ih (k + 1) (fun j h1 h2 => h j (by omega) (by omega))

/-- A table with the same value under every key below a bound. -/
def fullTable {α : Type} (n : Nat) (v : α) : Table α := (List.range n).map (fun i => (i, v))

theorem find_fullTable {α : Type} (n : Nat) (v : α) {i : Nat} (h : i < n) : Table.find (fullTable n v) i = some v := by
  refine Table.find_of_mem ?_ ?_
  · rw [Table.sorted_iff]
    exact List.pairwise_map.mpr (List.pairwise_lt_range)
  · exact List.mem_map.mpr ⟨i, List.mem_range.mpr h, rfl⟩

theorem fullTable_none {α : Type} (n : Nat) (v : α) : Table.firstFree (fullTable n v) 0 n = none :=
  firstFree_none _ _ _ (fun j _ h => by rw [find_fullTable n v (by omega)]; rfl)

theorem find_many {α : Type} (n k j : Nat) (v : α) (h : k ≠ j) :
    Table.find (many n (j, v) : Table α) k = none := by
  unfold many
  induction n with
  | zero => rfl
  | succ n ih => rw [List.replicate_succ]; simp only [Table.find, if_neg h]; exact ih

theorem witness_StepRunsFront : State.reset.pending = [] := rfl

theorem witness_FramesRefused :
    (State.reset.taking = false ∧ (requestHead (.clockRead 0 .malformed)).isSome = true) ∧
    (([] : List Byte).length ≠ (0 : Byte).toNat * 256 + (0 : Byte).toNat + 4) ∧
    (4160 < (0x10 : Byte).toNat * 256 + (0x41 : Byte).toNat) ∧ ((0x02 : Byte) ≠ 0x01) ∧
    (ofBytes [0, 0, 0, 0] ≠ (crc32 [0x01, 0, 0, 0, 0, 0]).toNat) ∧ (([] : List Byte).length < 6 ∧ (many 5 (0x01 : Byte)).length < 6) ∧
    (ready.taking = true ∧ requestHead (.itemOpen 3 .malformed) = some (3, 0x01, true) ∧
      requestHead (.reset 3 .malformed) = some (3, 0x2C, true)) ∧
    ((0x00 : Byte).toNat = 0 ∧ 0x2C < (0x2D : Byte).toNat) := by decide +kernel

theorem witness_FrameRoundTrip : (Instr.clockRead 0x11 (.fields ())).wf = true ∧
    encode (.clockRead 0x11 (.fields ())) = some [0x01, 0x11, 0x0A, 0x00, 0x00, 0x00, 0x48, 0xA3, 0x2C, 0x50] := by decide +kernel

theorem witness_FrameOfEveryCommand : exec (.clockRead 1 (.fields ())) running = .next (after (.clockRead 1 (.fields ())) running) := rfl

theorem witness_Notices : ready.taking = true := by decide

/-- An accepted value at each end of its range, and a value for each refusal of R198 in its order. -/
theorem witness_SettingSetOutcome :
    let c : State := { ready with compliant := true }
    (ready.taking = true ∧ ready.slotFree = true ∧ settingRange 4 = some (1, 4096) ∧ ready.settings.reserve < 33 ∧
      33 ≠ ready.settings.value 4 ∧ 4096 ≠ ready.settings.value 4 ∧ settingRange 5 = some (4, 1024) ∧
      255 < ready.settings.throttle ∧ 255 ≠ ready.settings.value 5 ∧ settingRange 2 = some (0, 1) ∧ 1 ≠ ready.settings.value 2) ∧
    (c.taking = true ∧ c.slotFree = true ∧ 299 ≤ c.settings.value 0 ∧ 299 ≠ c.settings.value 0 ∧ c.settings.value 3 ≤ 31 ∧
      31 ≠ c.settings.value 3) ∧
    settingRange 10 = none ∧ (settingRange 1 = some (10, 3600) ∧ 9 < 10 ∧ 3600 < 3601) ∧
    (32 ≤ ready.settings.reserve ∧ ready.settings.throttle ≤ 256) ∧
    (c.settings.value 0 < 301 ∧ c.settings.value 2 < 1 ∧ 29 < c.settings.value 3) ∧ 300 = ready.settings.value 0 ∧
    (full ready).taking = true := by decide +kernel

/-- A change of NOTICE_ENABLE that enables a kind whose flag is set, and one that does not; and the order where the change's own record is
the buffer's 1,024th: the frame of R196 before AUDIT_HALF's (log entry 26). -/
theorem witness_SettingSetOutcome_notices :
    let s : State := { ready with
      link := { ready.link with flags := 0x800 }, settings := { ready.settings with notices := 0 } }
    let h : State := { s with audit := { s.audit with buffer := many 1023 (recAt 0), counter := 1023 } }
    let set := fun (x : State) => after (.settingSet 1 (.fields { setting := 9, value := 0x801 })) x
    (s.taking = true ∧ h.taking = true ∧ settingRange 9 = some (0, 4095) ∧ 0x801 ≠ s.settings.value 9 ∧ s.slotFree = true ∧
      h.slotFree = true) ∧
    (s.link.flags &&& (set s).settings.notices &&& ~~~s.settings.notices ≠ 0 ∧ (set s).link.flags = s.link.flags) ∧
    (ready.link.flags &&& (set ready).settings.notices &&& ~~~ready.settings.notices = 0 ∧ (set ready).link.flags = ready.link.flags) ∧
    ((set h).link.flags ≠ h.link.flags ∧
      (set h).link.tx = [replyFrame 1 0x27 .ok [], noticeFrame 0x800 0x801, noticeFrame 0x801 0x801]) := by decide +kernel

theorem witness_DeviceReads : ready.taking = true ∧ 9 < 10 ∧ settingRange 0 = some (0, 3600) ∧ settingRange 9 = some (0, 4095) ∧
    3 < 4 ∧ (ready.media.get 3).state = .inService ∧ ready.audit.map.getLast? = none := by decide

theorem witness_ComplianceRequests :
    let c : State := { ready with compliant := true }
    (ready.taking = true ∧ ready.compliant = false ∧ ready.slotFree = true) ∧
    (c.taking = true ∧ c.compliant = true ∧ c.index.next ≤ 1 ∧ c.slotFree = true) ∧
    1 < { holding .retained .never with compliant := true }.index.next := by decide +kernel

theorem witness_ResetAndLinkReset :
    let s : State := { running with link := { running.link with resetTaken := true } }
    let e := fun o => chan s (fun c => { c with op := some o, erase := some ⟨3, .running, 2, false, false⟩ })
    ready.link.resetTaken = false ∧ s.taking = true ∧ s.link.resetTaken = true ∧ (s.media.get 0).op = none ∧
      ((e (.erase 3)).media.get 0).op = some (.erase 3) ∧ ((e .resume).media.get 0).op = some .resume ∧
      ((e .suspend).media.get 0).op = some .suspend ∧ ((e .suspend).media.get 1).op = none := by decide +kernel

/-- A part with frames unsent, a page held, an AUDIT queue and the due pause, its modules idle; one with every module in flight, a record
in the buffer and a slot free; and an IDENTIFY in flight. -/
theorem witness_ResetAndLinkReset_flight :
    let s : State := { running with
      link := { running.link with resetTaken := true, tx := [noticeFrame 1 1], flags := 1 }
      audit := { running.audit with held := [{ first := 0, count := 1 }] }
      dispo := { running.dispo with duePause := true, autoWait := true } }
    let q := chan s (fun c => { c with auditQ := [{ first := 1, count := 1 }] })
    let f : State := { s with
      media := chanNos.foldl (fun m i => m.set i { m.get i with op := some .probeErase }) s.media
      audit := { s.audit with counter := 1, buffer := [recAt 0] } }
    (q.taking = true ∧ q.link.resetTaken = true ∧ (q.media.get 0).auditQ ≠ [] ∧ (q.media.get 0).op = none) ∧
    (f.taking = true ∧ (∀ i : ChanNo, (f.media.get i).op ≠ none ∧ Table.sorted (f.media.get i).zones = true) ∧ 0 < f.audit.counter ∧ f.slotFree = true) ∧
    (∀ r, Op.identify ≠ .read r) ∧ (∀ g live, Op.identify ≠ .programIngest g live) ∧
    ∀ z n p live, Op.identify ≠ .programAudit z n p live := by
  exact ⟨by decide +kernel, by decide +kernel, nofun, nofun, nofun⟩

/-- The link reset discards the due pause, and everything of the audit drain. -/
theorem test_linkReset_discards :
    let s : State := { running with
      link := { running.link with resetTaken := true, tx := [noticeFrame 1 1], flags := 1 }
      audit := { running.audit with held := [{ first := 0, count := 1 }] }
      dispo := { running.dispo with duePause := true, autoWait := true } }
    (after .linkReset s).link.tx = [] ∧ (after .linkReset s).link.flags = 0 ∧ (after .linkReset s).audit.held = [] ∧
      (after .linkReset s).dispo.duePause = false := by decide +kernel

theorem witness_PowerOnAndLoss :
    let d : State := dark { running with clock := { running.clock with lost := false } }
    let r : State := { running with link := { running.link with resetTaken := true } }
    (ready.powered = true) ∧ (d.link.power = .off ∧ d.clock.lost = false ∧ d.clock.hwm ≤ d.clock.counter) ∧
    (State.reset.link.power = .off ∧ State.reset.clock.lost = true) ∧
    ({ d with clock := { d.clock with counter := 5 } }.clock.counter < d.clock.hwm) ∧
    (Table.sorted d.segs.buckets = true ∧ Table.sorted d.segs.overflow = true) ∧
    (Table.sorted (withEntry r (entry true 1 1 none [])).segs.buckets = true ∧ r.taking = true ∧ r.link.resetTaken = true) := by
  decide +kernel

/-- A part in start-up, whose modules given have still to answer. -/
def starting (cs : List ChanNo) : State :=
  let s := chan (holding .eligible (.day 1)) (fun c => { c with op := some .identify })
  { s with
    link := { s.link with power := .starting cs .powerOn }
    index := { s.index with sweeps := [.hold 0] }
    settings := { s.settings with auto := true }
    audit := { s.audit with startOwed := some { cause := .powerOn, intact := true, clock := .running, second := 5 } } }

/-- A part where every module is in flight at a link reset, its drain last on channel 1, whose AUDIT_OPEN zone is 4. -/
def drainMoves : State :=
  let busy := fun (c : Channel) => ({ c with op := some (.read { zone := 0, page := 0, who := .none }) } : Channel)
  let s : State := { working with link := { working.link with resetTaken := true }, audit := { working.audit with drainLast := 1 } }
  { s with media := { s.media with
    c0 := busy s.media.c0, c1 := busy (s.media.c1.setZone 4 { state := .auditOpen, wp := 9, live := 0, owed := false })
    c2 := busy s.media.c2, c3 := busy s.media.c3 } }

/-- Start-up that ends with the link reset moves the drain to channel 0 and closes the zone it used (R183, R190 (3)). -/
theorem test_linkReset_drain :
    (after .linkReset drainMoves).audit.drainLast = 0 ∧
      (((after .linkReset drainMoves).media.get 1).zone 4).state = .auditClosed := by decide +kernel

theorem witness_PowerOnAndLoss_drain :
    drainMoves.taking = true ∧ drainMoves.link.resetTaken = true ∧ (∀ c, (drainMoves.media.get c).op ≠ none) ∧
      (drainMoves.media.get 1).zoneIn .auditOpen = some 4 ∧ (drainMoves.media.get 0).zoneIn .auditOpen = none ∧
      (∀ c, Table.sorted (drainMoves.media.get c).zones = true) := by decide +kernel

/-- An ERASE in flight at a link reset, then suspended by a read: the module is asked when the erase has ended, not at the SUSPEND's
PASS (R178 (1)). -/
theorem test_askAfterErase :
    let s := chan { running with link := { running.link with resetTaken := true } } (fun c => { c with
      op := some (.erase 3), erase := some ⟨3, .running, 2, false, false⟩ })
    let u := after (.identifyComplete 3 true) (after (.identifyComplete 2 true) (after (.identifyComplete 1 true) (after .linkReset s)))
    let r := chan u (fun c => c.pushRead { zone := 0, page := 1, who := .none })
    let t := after (.readComplete 0 none) (after (.suspendComplete 0 true) r)
    (r.media.get 0).op = some .suspend ∧
      ((after (.suspendComplete 0 true) r).media.get 0).op = some (.read { zone := 0, page := 1, who := .none }) ∧
      (t.media.get 0).op = some .resume ∧
      ((after (.eraseComplete 0 true) (after (.resumeComplete 0 true) t)).media.get 0).op = some .identify := by decide +kernel

theorem witness_StartUpAnswers :
    let s := starting [0]
    let asked := fun o => chan ready (fun c => { c with op := some o, askOwed := true, erase := some ⟨3, .running, 0, false, false⟩ })
    ((asked (.erase 3)).powered = true ∧ ((asked .suspend).media.get 0).askOwed = true ∧
      ((asked .resume).media.get 0).erase ≠ none ∧
      ((asked (.programIngest { zone := 0, page := 0, data := [] } false)).media.get 0).op =
        some (.programIngest { zone := 0, page := 0, data := [] } false) ∧
      ((asked (.programAudit 0 0 { first := 0, count := 1 } false)).media.get 0).op =
        some (.programAudit 0 0 { first := 0, count := 1 } false) ∧
      ((asked (.read { zone := 0, page := 0, who := .none })).media.get 0).op = some (.read { zone := 0, page := 0, who := .none })) ∧
    ((starting [0, 3]).link.power = .starting [0, 3] .powerOn ∧ ([0, 3] : List ChanNo).filter (fun j => j != 0) ≠ []) ∧
    (∀ e, ((asked .suspend).media.get 0).erase = some e → e.askAfter = false) ∧
    (s.link.power = .starting [0] .powerOn ∧ ([0] : List ChanNo).filter (fun j => j != 0) = [] ∧
      (s.media.get 0).op = some .identify ∧ s.index.sweeps ≠ [] ∧ s.dispo.queue ≠ [] ∧ s.settings.auto = true ∧
      s.audit.startOwed.isSome = true ∧ s.slotFree = true ∧ s.audit.counter = 0 ∧ s.audit.buffer = [] ∧ s.audit.map = []) ∧
    0 < { s.audit with counter := 1 }.counter := by decide +kernel

/-- The operations of a discarded probe and an IDENTIFY in flight at a link reset, in start-up, which waits for another module, and after
it; and an operation that times out. -/
theorem witness_StartUpAnswers_flight :
    let asked := fun (s : State) o => chan s (fun c => { c with op := some o, askOwed := true })
    (∀ o ∈ [Op.probeErase, .probeProgram 4095, .probeRead 0, .identify],
      ((asked ready o).media.get 0).probing = false ∧ ((asked ready o).media.get 0).op = some o ∧
        ((asked ready o).media.get 0).askOwed = true ∧ (asked ready o).powered = true ∧ ((asked ready o).media.get 0).erase = none) ∧
    (∀ cs k, ready.link.power = .starting cs k → 0 ∉ cs) ∧
    (∀ cs k, (asked (starting [1]) .identify).link.power = .starting cs k → 0 ∉ cs) := by
  refine ⟨by decide +kernel, nofun, fun cs k h => ?_⟩
  cases h
  decide

/-- Each of them: asked at the end of a discarded probe's operation and at the PASS of an IDENTIFY in flight, OFFLINE and not asked at a
timeout and at the FAIL of that IDENTIFY (R178 (1), log entry 30). -/
theorem test_askedInFlight :
    let asked := fun o => chan ready (fun c => { c with op := some o, askOwed := true })
    let seen := fun (s : State) => ((s.media.get 0).op, (s.media.get 0).askOwed, (s.media.get 0).state)
    seen (after (.eraseComplete 0 true) (asked .probeErase)) = (some .identify, false, .inService) ∧
      seen (after (.readComplete 0 none) (asked (.probeRead 0))) = (some .identify, false, .inService) ∧
      seen (after (.identifyComplete 0 true) (asked .identify)) = (some .identify, false, .inService) ∧
      seen (after (.identifyComplete 0 false) (asked .identify)) = (none, false, .offline) ∧
      seen (after (.operationTimeout 0) (asked (.erase 3))) = (none, false, .offline) := by decide +kernel

/-- The last answer raises CHANNEL_OFFLINE for a module that did not answer, and sends its NOTICE frame where the kind is enabled. -/
theorem witness_StartUpAnswers_notices :
    let s := { starting [0] with settings := { (starting [0]).settings with notices := 0x20 } }
    let t := after (.identifyComplete 0 false) s
    (s.link.power = .starting [0] .powerOn ∧ ([0] : List ChanNo).filter (fun j => j != 0) = [] ∧ (s.media.get 0).op = some .identify ∧
      ∀ j : ChanNo, Table.sorted (s.media.get j).zones = true) ∧
    (Notice.channelOffline.bit = 5 ∧ s.link.flags.getLsbD 5 = false ∧ t.link.flags.getLsbD 5 = true ∧
      s.settings.notices.getLsbD 5 = true ∧ noticeFrame 0x20 0x20 ∈ t.link.tx) := by decide +kernel

theorem witness_TimeBase :
    let m : State := { running with clock := { running.clock with counter := 86399, lost := false } }
    let h : State := { running with clock := { running.clock with state := .held, hold := 1 } }
    (running.marks = true ∧ h.marks = true ∧ h.clock.state = .held ∧ h.clock.hold = 1) ∧
    (m.marks = true ∧ m.rolloverNext = true ∧ m.powered = true) ∧
    ((dark m).marks = true ∧ (dark m).rolloverNext = true ∧ (dark m).powered = false) := by decide +kernel

/-- A set to the HWM's own day, and to the first second of the day after it. -/
theorem witness_ClockReadAndSet :
    let u : State := { running with clock := { running.clock with state := .unset } }
    (running.taking = true ∧ running.clock.state ≠ .unset) ∧ (u.taking = true ∧ u.clock.state = .unset ∧ u.slotFree = true) ∧
    (999999999 = max u.clock.hwm (min 0 6311433599) ∧ 999999999 / 86400 ≤ u.clock.hwm / 86400) ∧
    (1000080000 = max u.clock.hwm (min 1000080000 6311433599) ∧ u.clock.hwm / 86400 < 1000080000 / 86400) ∧
    (full u).clock.state = .unset := by decide +kernel

theorem witness_ClockAdjust :
    let m : State := { running with clock := { running.clock with counter := 1000079999 } }
    (ready.taking = true ∧ ready.clock.state = .unset) ∧ (running.clock.state ≠ .unset ∧ running.slotFree = true) ∧
    (running.clock.counter < 1000000001 ∧ (1000000000 + 1) / 86400 = running.clock.counter / 86400) ∧
    (m.clock.counter < 1000080000 ∧ m.clock.counter / 86400 < (1000079999 + 1) / 86400 ∧
      1 = min (1000080000 - m.clock.counter) (min (m.settings.allowance - m.clock.used) (6311433599 - m.clock.counter))) ∧
    (999999999 < running.clock.counter ∧ 1 = min (running.clock.counter - 999999999) running.settings.allowance) ∧
    1000000000 = running.clock.counter := by decide +kernel

theorem witness_DatesAreInverse : (29 ≤ monthLen 2000 2) ∧ (31 ≤ monthLen 2199 12) ∧ (1 ≤ monthLen 2000 1) ∧ 73048 ≤ 73048 := by
  decide

/-- Each outcome of the clamp at its boundary, each anchor of R21, and a class set for each outcome of the combination. -/
theorem witness_Expiries :
    (7 = (if 73048 < 604800 / 86400 then 73048 else 604800 / 86400) ∧ 7 < 38 - 30 ∧ ¬(8 < 38 - 30) ∧ 38 < 39) ∧
    (73048 = (if 73048 < 6311433600 / 86400 then 73048 else 6311433600 / 86400)) ∧
    ({ oneYear with permanent := true }.permanent = true) ∧ ({ oneYear with anchor := .event }.permanent = false) ∧
    (oneYear.permanent = false ∧ oneYear.anchor = .ingest) ∧ dateOf 11574 = (2031, 9, 9) ∧
    (∃ e ∈ [(Expiry.never, false), (.day 3, true)], e.1 = .never) ∧
    ((∀ e ∈ [(Expiry.pending, false), (.day 3, true)], e.1 ≠ .never) ∧
      ∃ e ∈ [(Expiry.pending, false), (.day 3, true)], e.1 = .pending) ∧
    (∀ e ∈ [(Expiry.day 5, false), (.day 3, true)], e.1 ≠ .never ∧ e.1 ≠ .pending) := by decide +kernel

/-- A set of a LOCKED and a DEFINED class with their definitions; a key that is POSTED, AWAITING, or absent. -/
theorem witness_Expiries_item :
    let p : Policy := { working.policy with classes := [(0, { state := .defined oneYear, inUse := 1 }),
      (3, { state := .locked { oneYear with anchor := .event }, inUse := 1 })] }
    let x : Index := { working.index with events := [(9, { posted := some 3, items := [] }), (10, { posted := none, items := [] })] }
    ([{ oneYear with anchor := .event }, oneYear].length = [3, 0].length ∧
      (p.cls 3).state = .locked { oneYear with anchor := .event } ∧ (p.cls 0).state = .defined oneYear) ∧
    ((x.event 9).map (·.posted) = some (some 3) ∧ (x.event 10).map (·.posted) = some none ∧ x.event 11 = none) := by decide +kernel

/-- An ITEM_OPEN of the tests. -/
def openReq : ItemOpen := { domain := 0, segCount := 1, sent := 0, tags := 0, event := some 9, parties := [7] }

/-- A part with an event key table that holds every key it can. -/
def eventFull : State := { working with index := { working.index with events := many 65536 (0, { posted := none, items := [] }) } }

theorem witness_ItemOpenOutcome :
    (working.taking = true ∧ working.clock.state ≠ .unset ∧ (working.policy.domain openReq.domain).active = true ∧
      (working.index.next - 1) + working.ingest.openCount < 16777215 ∧ working.index.events.length < 65536 ∧
      (working.ingest.ctx 0).body = none) ∧
    ((withSlot working .empty false).ingest.ctx 0).body ≠ none ∧ ((withSlot working .empty false).ingest.ctx 1).body = none ∧
    ready.clock.state = .unset ∧ (List.replicate 129 (0 : Key)).length = 129 ∧ (working.policy.domain 15).active = false ∧
    16777215 ≤ ({ working with index := { working.index with next := 16777216 } }.index.next - 1) + working.ingest.openCount := by
  decide +kernel

/-- A context that is not FREE. -/
def busyCtx : Ctx := { gen := 1, body := some { committing := false, env, group := 0, slots := [], deadline := .suspended } }

theorem witness_ItemOpenOutcome_full : eventFull.index.lacks openReq.event = true ∧ 65536 ≤ eventFull.index.events.length ∧
    { ctxs := fullTable 16 busyCtx, ready := [] : Ingest }.lowestFree = none := by
  refine ⟨?_, Nat.le_of_eq (length_many _ _).symm, by decide +kernel⟩
  show (Table.find (many 65536 (0, ({ posted := none, items := [] } : EventEntry)) : Table EventEntry) 9).isNone = true
  rw [find_many _ _ _ _ (by decide)]; rfl

/-- A part where a waiter of context 1 waits on the upload that context 0 owns. -/
def shared : State :=
  let open1 := fun (v : Slot) => ({ committing := false, env, group := 0, slots := [v], deadline := .running 120 } : OpenCtx)
  { writing with
    segs := { writing.segs with buckets := [(763776, entry false 0 0 (some slot0) [⟨1, 1, 0⟩])] }
    ingest := { ready := [], ctxs :=
      [(0, { gen := 1, body := some (open1 (.writing decl)) }), (1, { gen := 1, body := some (open1 (.waiting decl)) })] } }

theorem witness_ContextGivenUp :
    let s := withSlot working .empty false
    let up := fun (vs : List Slot) => (vs.filterMap Slot.uploading).countP (fun d => decide (d.ref = abcRef))
    (up [.writing decl] = 1 ∧ ([.ready decl] : List Slot).countP (Slot.claims abcRef) = 1 ∧ up [.ready decl] = 0 ∧
      ([.writing decl] : List Slot).countP (Slot.claims abcRef) = 0) ∧
    ((shared.segs.entry abcRef).map (fun e => e.waiters.filter (fun w => !decide (w.ctx = 0 ∧ w.gen = 1))) = some [⟨1, 1, 0⟩] ∧
      (shared.segs.entry abcRef).map (fun e => e.waiters.filter (fun w => !decide (w.ctx = 1 ∧ w.gen = 1))) = some []) ∧
    (working.taking = true ∧ 15 < 16 ∧ (working.ingest.ctx 15).body = none ∧ (s.ingest.ctx 0).gen ≠ 2) ∧
    (s.taking = true ∧ (s.ingest.ctx 0).body = some { committing := false, env, group := 0, slots := [.empty], deadline := .running 120 }) ∧
    (((committable true).segs.entry abcRef).map (·.stored) = some true) ∧
    ((withEntry (withSlot working (.waiting decl) false) (entry false 0 0 none [slot0])).segs.entry abcRef).isSome = true ∧
    (writing.segs.entry abcRef).map (·.waiters) = some [] ∧ (sending.segs.entry abcRef).map (·.waiters) = some [] := by
  decide +kernel

/-- A context with one WRITING slot and a waiter of another context: a placement granted on the media with the old pages withdrawn and
dead, none where no channel is IN_SERVICE, and nobody left to hand the upload to; a READY slot whose claim was the last. -/
theorem witness_ContextGivenUp_upload :
    let m := fun s : State => (s.media.withdraw ⟨0, 0, 0, 1⟩).deadPages ⟨0, 0, 0, 1⟩
    let off := chanNos.foldl (fun m i => m.set i { m.get i with state := .fenced }) (m shared)
    (((shared.ingest.ctx 0).body.map (fun o => (o.slots.filterMap Slot.uploading, decide (o.deadline = .running 120))) =
        some ([decl], true)) ∧ decl.ref = abcRef ∧
      (shared.segs.entry abcRef).map (fun e => (e.stored, e.loc, e.waiters)) = some (false, ⟨0, 0, 0, 1⟩, [⟨1, 1, 0⟩])) ∧
    (((m shared).place shared.settings 1 abcRef).isSome = true ∧ off.place shared.settings 1 abcRef = none ∧
      (shared.slotAt ⟨1, 1, 0⟩).bind Slot.decl = some decl) ∧
    ((writing.ingest.ctx 0).body.map (fun o => o.slots.filterMap Slot.uploading) = some [decl] ∧
      (writing.segs.entry abcRef).map (·.waiters) = some []) ∧
    (((committable false).segs.entry abcRef).map (fun e => (e.stored, e.refs, decide (e.claims ≤ 1), e.pinned)) =
      some (true, 0, true, false)) := by decide +kernel

/-- An upload with a waiter, a placement for it, and no placement where no channel is IN_SERVICE. -/
theorem witness_UploadEnds :
    let m := shared.media.deadPages ⟨0, 0, 0, 1⟩
    let f : Media := { m with c0 := { m.c0 with state := .fenced }, c1 := { m.c1 with state := .fenced }
                              c2 := { m.c2 with state := .fenced }, c3 := { m.c3 with state := .fenced } }
    (shared.segs.entry abcRef = some (entry false 0 0 (some slot0) [⟨1, 1, 0⟩]) ∧
      writing.segs.entry abcRef = some (entry false 0 0 (some slot0) [])) ∧
    ((m.place shared.settings 1 abcRef).isSome = true ∧ f.place shared.settings 1 abcRef = none) ∧
    ((shared.ctxOf ⟨1, 1, 0⟩).isSome = true ∧ (shared.slotAt slot0).bind Slot.decl = some decl ∧
      (shared.slotAt ⟨1, 1, 0⟩).bind Slot.decl = some decl) ∧
    (((committable true).ctxOf slot0).map (fun o => (o.committing, o.allReady)) = some (true, true)) := by decide +kernel

/-- A declaration of "abc" for slot 0 of context 0. -/
def declareReq : SegDeclare := { ref := ⟨0, 1⟩, slot := 0, digest := abc, length := 3 }

/-- A part whose slot 0 awaits its declaration. -/
def declaring : State := withSlot working .empty false

theorem witness_SegDeclareOutcome :
    let known := fun claims => withEntry declaring (entry true claims 1 none [])
    let wait := fun ws => withEntry declaring (entry false 0 0 (some ⟨1, 1, 0⟩) ws)
    (((withSlot working (.writing decl) true).ingest.named ⟨0, 1⟩).map (·.committing) = some true ∧ env.segCount ≤ 1 ∧
      16777216 < 16777217 ∧ (sending.ingest.named ⟨0, 1⟩).map (fun o => decide (o.slots[0]? ≠ some .empty)) = some true) ∧
    (declaring.taking = true ∧ (declaring.ingest.named declareReq.ref).map (fun o => (o.committing, o.env.segCount, o.slots[0]?)) =
      some (false, 1, some .empty) ∧ 1 ≤ declareReq.length) ∧
    ((known 15).segs.lookup abc 3 0 = some abcRef ∧ ((known 15).segs.entry abcRef).map (fun e => (e.stored, decide (e.claims < 16))) =
      some (true, true) ∧ ((known 16).segs.entry abcRef).map (fun e => decide (16 ≤ e.claims)) = some true) ∧
    ((wait (List.replicate 14 ⟨2, 1, 0⟩)).segs.entry abcRef).map (fun e => (e.stored, decide (e.waiters.length < 15))) =
      some (false, true) ∧
    ((wait (List.replicate 15 ⟨2, 1, 0⟩)).segs.entry abcRef).map (fun e => decide (15 ≤ e.waiters.length)) = some true ∧
    (declaring.segs.lookup abc 3 0 = none ∧ declaring.segs.freeEntry abc 0 = some abcRef ∧
      (declaring.media.place declaring.settings (pagesOf 3) abcRef).isSome = true) ∧
    ({ declaring.media with c0 := { declaring.media.c0 with state := .fenced }, c1 := { declaring.media.c1 with state := .fenced }
                            c2 := { declaring.media.c2 with state := .fenced }, c3 := { declaring.media.c3 with state := .fenced }
        : Media }.place declaring.settings (pagesOf 3) abcRef).isNone = true := by decide +kernel

/-- The eight ways of the bucket of "abc", each with another content. -/
def otherWays : Table SegEntry := (List.range 8).map (fun w => (763776 + w, { entry true 0 1 none [] with digest := 1 }))

theorem tableFull_of (o : Table SegEntry) (h : Table.firstFree o 0 Config.overflow = none) :
    { declaring.segs with buckets := otherWays, overflow := o }.lookup abc 3 0 = none ∧
      { declaring.segs with buckets := otherWays, overflow := o }.freeEntry abc 0 = none := by
  have hw : ∀ w ∈ List.range 8, (Table.find otherWays (bucketOf abc 0 * 8 + w)).map (·.digest) = some 1 := by decide +kernel
  have hf : ∀ r ∈ waysOf (bucketOf abc 0), ∃ e,
      { declaring.segs with buckets := otherWays, overflow := o }.entry r = some e ∧ e.digest = 1 := by
    intro r hr
    obtain ⟨w, hw', rfl⟩ := List.mem_map.mp hr
    obtain ⟨e, he, hd⟩ := Option.map_eq_some_iff.mp (hw w hw')
    exact ⟨e, he, hd⟩
  refine ⟨List.find?_eq_none.mpr (fun r hr => ?_), ?_⟩
  · obtain ⟨e, he, hd⟩ := hf r hr
    have h1 : ¬ (1 : Digest) = abc := by decide
    simp only [he, hd, decide_eq_true_eq]
    exact fun h2 => h1 h2.1
  · have hn : (waysOf (bucketOf abc 0)).find? (fun r =>
        ({ declaring.segs with buckets := otherWays, overflow := o }.entry r).isNone) = none :=
      List.find?_eq_none.mpr (fun r hr => by obtain ⟨e, he, _⟩ := hf r hr; simp [he])
    unfold Segs.freeEntry
    rw [hn]
    exact congrArg (Option.map EntryRef.overflow) h

theorem witness_SegDeclareOutcome_table :
    let t : Segs := (withEntry declaring (entry true 0 1 none [])).segs
    let seven : Segs := { t with buckets := otherWays.take 7 }
    let all : Segs := { t with buckets := otherWays, overflow := [(0, entry true 0 1 none [])] }
    ((digestBytes abc).take 3 = [0xba, 0x78, 0x16] ∧ bucketOf abc 0 = (0xba * 512 + 0x78 * 2 + 0 + 4099 * 0) % 131072 ∧
      abcRef = .bucket (bucketOf abc 0 * 8 + 0)) ∧
    (t.lookup abc 3 0 = some abcRef ∧ t.lookup abc 4 0 = none ∧ t.lookup abc 3 1 = none) ∧
    (seven.entry (.bucket (763776 + 7)) = none ∧ (∀ v, v < 7 → seven.entry (.bucket (763776 + v)) ≠ none) ∧
      seven.freeEntry abc 0 = some (.bucket (763776 + 7))) ∧
    ((∀ w, w < 8 → all.entry (.bucket (763776 + w)) ≠ none) ∧ all.entry (.overflow 1) = none ∧ all.entry (.overflow 0) ≠ none ∧
      all.freeEntry abc 0 = some (.overflow 1)) := by decide +kernel

/-- The buckets of the example of R52. -/
theorem test_bucketOf :
    let d : Digest := BitVec.ofNat 256 (0xA35C80 * 2 ^ 232)
    bucketOf d 0 = 83641 ∧ bucketOf d 3 = 95938 ∧ bucketOf d 15 = 14054 := by decide +kernel

theorem witness_SegDeclareOutcome_tableFull :
    { declaring.segs with buckets := otherWays, overflow := fullTable Config.overflow (entry true 0 1 none []) }.lookup abc 3 0 =
        none ∧
      { declaring.segs with buckets := otherWays, overflow := fullTable Config.overflow (entry true 0 1 none []) }.freeEntry abc 0 =
        none := tableFull_of _ (fullTable_none _ _)

theorem witness_SegDataOutcome :
    let bytes := fun n => List.replicate n (0 : Byte)
    let busy := chan sending (fun c => { c with filling := List.replicate 64 { zone := 9, page := 0, data := [] } })
    (sending.taking = true ∧ (sending.ingest.named ⟨0, 1⟩).map (fun o => o.slots[0]?) = some (some (.sending decl 0 Sha.start)) ∧
      (sending.segs.entry decl.ref).map (fun e => (e.loc.chan, e.waiters)) = some (0, [])) ∧
    ((declaring.ingest.named ⟨0, 1⟩).map (fun o => o.slots[0]?) = some (some .empty) ∧ (bytes 0).length = 0 ∧ 4096 < 4097) ∧
    (1 ≤ (bytes 1).length ∧ (bytes 4096).length ≤ 4096) ∧ 1 ≠ 0 ∧ decl.length < 0 + (bytes 4).length ∧
    (shared.segs.entry abcRef).map (fun e => decide (slot0 ∉ e.waiters)) = some true ∧
    (0 + (bytes 3).length ≤ decl.length ∧ (busy.media.get 0).stagingFree < newPages 0 3) ∧
    (newPages 0 3 ≤ (sending.media.get 0).stagingFree ∧ 0 + (bytes 2).length < decl.length) ∧
    ((Sha.start.update [0x61, 0x62, 0x63]).finish = decl.digest ∧ (Sha.start.update (bytes 3)).finish ≠ decl.digest) := by
  decide +kernel

/-- Bytes that fill no page, that fill the last page, that fill another page, and that run into the next; a page handed over and one that
is not filling; a run with a page in it and one outside; and a zone whose last page dies, FULL and not. -/
theorem witness_SegDataOutcome_media :
    let l : Loc := ⟨0, 0, 2, 2⟩
    let c := (working.media.get 0).fill 0 3 [1]
    let z := fun st => ({ working.media with c0 := c.setZone 0 { c.zone 0 with state := st, live := 2 } }.get 0).zone 0
    ((1 < 16384 - 0 % 16384) ∧ (1 = 16384 - 32767 % 16384 ∧ l.count ≤ 32767 / 16384 + 1) ∧
      (16384 - 16383 % 16384 ≤ 1 ∧ 16383 / 16384 + 1 < l.count) ∧ 16384 - 16383 % 16384 < 2) ∧
    (c.filled 0 3 = some [1] ∧ c.filled 0 4 = none) ∧
    (({ zone := 0, page := 3, data := [1] } : StagePage) ∈ c.filling ∧ l.first ≤ 3 ∧ 3 < l.first + l.count ∧ ¬(4 < l.first + l.count)) ∧
    ((z .full).state = .full ∧ (z .full).live - l.count = 0 ∧ (z .ingestOpen).state ≠ .full ∧ Table.sorted c.zones = true) := by
  decide +kernel

/-- The least and the most bytes, at a page's begin and across its end; a module that programs a staging page, and one that does not. -/
theorem witness_SegDataOutcome_pages :
    let c := { working.media.get 0 with op := some (.programIngest { zone := 0, page := 0, data := [] } true) }
    (newPages 16384 1 = 1 ∧ newPages 1 4096 = 0 ∧ newPages 12289 4096 = 1 ∧ newPages 12288 4096 = 0) ∧
    (c.op = some (.programIngest { zone := 0, page := 0, data := [] } true) ∧ c.stagingFree = 63) ∧
    ((working.media.get 0).op = none ∧ (working.media.get 0).stagingFree = 64) := by decide +kernel

theorem witness_Commits :
    let o := fun s : State => (s.ingest.named ⟨0, 1⟩).map (fun o => (o.committing, o.slots, o.allReady))
    (o (committable true) = some (true, [.ready decl], true)) ∧ (o declaring = some (false, [.empty], false)) ∧
    (o (committable false) = some (false, [.ready decl], true) ∧ (committable false).slotFree = true) ∧
    (o (withSlot working (.writing decl) false) = some (false, [.writing decl], false)) ∧
    (0 ∉ (committable false).ingest.ready) ∧
    ((committable true).ingest.ready = [0] ∧ ((committable true).ingest.ctx 0).body.isSome = true ∧
      (committable true).slotFree = true ∧ declaring.ingest.ready = [] ∧ 0 ∉ ([1] : List Nat)) := by decide +kernel

theorem witness_ItemReads :
    let s := holding .retained (.day 11940)
    (s.taking = true ∧ s.index.next ≤ 2 ∧ (1 : Nat) ≠ 0 ∧ 1 < s.index.next) ∧ s.index.item 1 = some (item .retained (.day 11940)) ∧
    (item .retained (.day 11940)).body = .live (live .retained) ∧ (holdingTomb.index.item 1).map (·.body) = some (.disposed 5) := by
  decide +kernel

/-- An item in the disposition queue, once. -/
theorem witness_ItemReads_queue :
    let d := (holding .eligible (.day 11573)).dispo
    ({ item := 1, day := 11570 } : QueueEntry) ∈ d.queue ∧ (d.queue.map (·.item)).Nodup ∧ d.queuedDay 1 = some 11570 := by decide +kernel

/-- One byte and the longest range of a segment of 16,385 bytes, which ends in its second page. -/
theorem witness_SegmentReadsStart :
    let s := holding .retained (.day 11940)
    let off := chan s (fun c => { c with state := .offline })
    let busy := chan s (fun c => { c with readQ := List.replicate 32 { zone := 0, page := 0, who := .none } })
    (s.index.next ≤ 2 ∧ 1 < s.index.next ∧ (holdingTomb.index.item 1).map (·.body) = some (.disposed 5) ∧
      (live .retained).segs.length ≤ 1) ∧
    (s.taking = true ∧ (live .retained).segs[0]? = some { digest := abc, length := 3, ref := abcRef } ∧
      (s.segs.entry abcRef).map (·.loc.chan) = some 0) ∧ (4096 < 4097 ∧ 3 < 1 + 3) ∧ (off.media.get 0).state = .offline ∧
    ((s.media.get 0).state ≠ .offline ∧ 1 = (0 + 3 - 1) / 16384 - 0 / 16384 + 1 ∧ 1 ≤ (s.media.get 0).readRoom ∧
      (busy.media.get 0).readRoom < 1 ∧ (busy.media.get 0).readRoom = 0) ∧
    (s.segs.freePlace = some 0 ∧ { s.segs with verifies := (List.range 4).map (fun p =>
      { place := p, tag := 0, item := 1, digest := 0, length := 3, loc := ⟨0, 0, 0, 1⟩, next := 0, sha := Sha.start
        waiting := false }) }.freePlace = none) := by decide +kernel

/-- Verify places in use with a gap, and all four. -/
theorem witness_SegmentReadsStart_places :
    let g := fun (ps : List Nat) => ({ working.segs with verifies := ps.map (fun p =>
      { place := p, tag := 0, item := 1, digest := 0, length := 3, loc := ⟨0, 0, 0, 1⟩, next := 0, sha := Sha.start
        waiting := false }) } : Segs)
    ((g [3, 0, 1]).freePlace = some 2 ∧ (g [1, 2, 3]).freePlace = some 0 ∧ (g [2, 1, 0]).freePlace = some 3) ∧
    ((∀ v ∈ (g [3, 1, 0, 2]).verifies, v.place < 4) ∧ ((g [3, 1, 0, 2]).verifies.map (·.place)).Nodup ∧
      (g [3, 1, 0, 2]).freePlace = none) := by decide +kernel

/-- Each refusal of R75 and R78 in its order at a boundary, and an accepted request of each. -/
theorem witness_ClassRequests :
    let locked : State := { working with policy := { working.policy with classes := [(0, { state := .locked oneYear, inUse := 1 })] } }
    let busy : State := { holding .retained .never with index := { working.index with
      sweeps := (List.range 16).map .hold } }
    let s : State := { working with policy := { working.policy with classes := [(63, { state := .defined oneYear, inUse := 0 })] } }
    (working.taking = true ∧ 63 < 64 ∧ 150 < { oneYear with py := 151 }.py ∧ 11 < { oneYear with pm := 12 }.pm ∧
      999 < { oneYear with pd := 1000 }.pd ∧ 3650 < { oneYear with fd := 3651 }.fd ∧
      (locked.policy.cls 0).state.refuses { oneYear with py := 0 } = true ∧ (working.policy.cls 0).state = .defined oneYear) ∧
    (0 < (busy.policy.cls 0).inUse ∧ SweepReq.cls 0 ∉ busy.index.waiting ∧ 16 ≤ busy.index.sweeps.length) ∧
    (working.slotFree = true ∧ (working.policy.cls 0).state ≠ .defined { oneYear with py := 2 }) ∧
    ((working.policy.cls 1).state = .undefined ∧ (locked.policy.cls 0).state = .locked oneYear ∧
      (working.policy.domain 0).active = true ∧ (working.policy.domain 0).fallback = some 0) ∧
    (s.policy.cls 63).state = .defined oneYear ∧ (s.policy.cls 63).inUse = 0 ∧ s.policy.fallbackOf 63 = [] ∧ s.slotFree = true := by
  decide +kernel

theorem witness_DomainSetOutcome :
    let c : State := { withSlot working .empty false with compliant := true }
    (working.taking = true ∧ (working.policy.domain 15).active = false ∧ working.slotFree = true ∧
      (working.policy.cls 0).state ≠ .undefined) ∧
    (15 < 16 ∧ 63 < 64 ∧ 511 < 512 ∧ 3650 < 3651) ∧ (working.policy.cls 1).state = .undefined ∧
    ((c.policy.domain 0).backdate < 31 ∧ (c.policy.domain 0).active = true) ∧ 0 < (withSlot working .empty false).ingest.openIn 0 ∧
    working.policy.domain 0 = { active := true, group := 0, fallback := some 0, start := 0, backdate := 30 } := by decide +kernel

theorem witness_PolicyWriteAndArchiveFlags :
    (511 < 512 ∧ inRangeEntry (.used (.tag 32) true .stop) = false ∧ inRangeEntry (.used (.tag 31) true (.goto 511)) = true ∧
      inRangeEntry (.used .always true (.goto 512)) = false) ∧
    (PolicyEntry.unused = working.policy.entry 511 ∧ PolicyEntry.used (.tag 31) true (.goto 511) ≠ working.policy.entry 511) ∧
    (working.taking = true ∧ working.slotFree = true) ∧
    (∀ n, n < 8 → (0x01 : BitVec 8).getLsbD n = if (3#8).getLsbD n = true ∧ (2#8).getLsbD n = false then true
      else if (3#8).getLsbD n = false ∧ (2#8).getLsbD n = true then false
      else if (3#8).getLsbD n = true ∧ (2#8).getLsbD n = true then !(2#8).getLsbD n else (2#8).getLsbD n) ∧
    (0x01 : BitVec 8) ≠ 2 := by decide +kernel

theorem witness_ConfigurationReads :
    let s : State := { working with hold := { working.hold with custodians := [(4095, { key := 7, mask := 1 })] } }
    working.taking = true ∧ working.hold.find 7 = none ∧ s.hold.find 7 = some (4095, 1) ∧ 4095 < 4096 ∧
      Table.find working.hold.custodians 4095 = none ∧ Table.find s.hold.custodians 4095 = some { key := 7, mask := 1 } := by
  decide +kernel

/-- A policy list for each program the statement speaks of. -/
theorem witness_PolicyEvaluation :
    let d : DomainRec := working.policy.domain 0
    let list := fun (es : Table PolicyEntry) => { working.policy with entries := es }
    let p := list [(511, .used .always true (.goto 511))]
    let five : Policy := { list ((List.range 5).map (fun n => (n, .used .always true (.cls n))) ++ [(5, .used .always true .stop)]) with
      classes := (List.range 5).map (fun n => (n, { state := .defined oneYear, inUse := 0 })) }
    let flags := list [(0, .used .always true (.flags 3 1)), (1, .used .always true (.flags 5 4)), (2, .used .always true .stop)]
    let call := list [(0, .used .always true (.call 7)), (7, .used .always true (.cls 0)), (8, .used .always true .ret),
      (1, .used .always true .stop)]
    (d.fallback = some 0 ∧ { d with start := 510 }.start < 511 ∧ p.entry 510 = .unused ∧ (p.cls 1).state = .undefined) ∧
    (working.policy.entry 0 = .used .always true (.cls 0) ∧ (working.policy.cls 0).state ≠ .undefined ∧
      working.policy.entry 1 = .used .always true .stop) ∧ p.entry 511 = .used .always true (.goto 511) ∧
    ((list [(510, .used .hasEventKey false .stop), (511, .used .always true (.cls 0))]).entry 510 = .used .hasEventKey false .stop ∧
      (list [(511, .used .always true (.cls 0))]).entry 511 = .used .always true (.cls 0)) ∧
    ((List.range 5).length = 5 ∧ (List.range 5).Nodup ∧ (∀ k ∈ List.range 5, (five.cls k).state ≠ .undefined) ∧
      five.entry 4 = .used .always true (.cls 4) ∧ five.entry 5 = .used .always true .stop) ∧
    (flags.entry 0 = .used .always true (.flags 3 1) ∧ flags.entry 2 = .used .always true .stop ∧
      ∀ n, n < 8 → (0x07 : BitVec 8).getLsbD n = if (5#8).getLsbD n = true ∧ (4#8).getLsbD n = false then true
        else if (5#8).getLsbD n = false ∧ (4#8).getLsbD n = true then false
        else if (5#8).getLsbD n = true ∧ (4#8).getLsbD n = true then !(3#8).getLsbD n else (3#8).getLsbD n) ∧
    (call.entry 0 = .used .always true (.call 7) ∧ call.entry 8 = .used .always true .ret ∧
      (list [(0, .used .always true (.call 0))]).entry 0 = .used .always true (.call 0) ∧
      (list [(0, .used .always true .ret)]).entry 0 = .used .always true .ret) := by decide +kernel

theorem witness_PolicyEvaluation_more :
    let list := fun (es : Table PolicyEntry) => { working.policy with
      entries := es, classes := (List.range 5).map (fun n => (n, { state := .defined oneYear, inUse := 0 })) }
    let d : DomainRec := working.policy.domain 0
    let back := list [(0, .used .always true (.goto 510)), (510, .used .always true (.cls 1)), (511, .used .always true .stop)]
    let one := list [(510, .used .always true (.cls 0))]
    let four := list ((List.range 4).map (fun n => (507 + n, .used .always true (.cls (n + 1)))))
    let flags := list [(510, .used .always true (.flags 1 0))]
    let test := list [(509, .used .always true (.flags 1 0)), (510, .used (.itemFlag 0) false (.cls 1)), (511, .used .always true .stop)]
    (d.fallback = some 0 ∧ back.entry 0 = .used .always true (.goto 510) ∧
      back.entry 510 = .used .always true (.cls 1) ∧ back.entry (510 + 1) = .used .always true .stop) ∧
    (one.entry 510 = .used .always true (.cls 0) ∧ one.entry (510 + 1) = .unused ∧ (one.cls 0).state ≠ .undefined) ∧
    ([1, 2, 3, 4].Nodup ∧ 0 ∉ [1, 2, 3, 4] ∧ (∀ k ∈ [1, 2, 3, 4], (four.cls k).state ≠ .undefined) ∧ four.entry (507 + 4) = .unused ∧
      (∀ n, n < 4 → four.entry (507 + n) = .used .always true (.cls (n + 1)))) ∧
    (flags.entry 510 = .used .always true (.flags 1 0) ∧ flags.entry (510 + 1) = .unused) ∧
    (test.entry 509 = .used .always true (.flags 1 0) ∧ test.entry (509 + 1) = .used (.itemFlag 0) false (.cls 1) ∧
      test.entry (509 + 2) = .used .always true .stop) := by decide +kernel

/-- A list that is passed over up to its 256th entry, which ends it, and one passed over at all 256, at the last starts for which the
257th visit faults and for which entry 511 ends the list. -/
theorem witness_PolicyEvaluation_visits :
    let pass := fun st n => { working.policy with entries := (List.range n).map (fun k => (st + k, PolicyEntry.used .always false .stop)) }
    let stop := fun st => { pass st 255 with entries := (pass st 255).entries ++ [(st + 255, PolicyEntry.used .always true .stop)] }
    ((∀ n, n < 255 → (stop 256).entry (256 + n) = .used .always false .stop) ∧ (stop 256).entry 511 = .used .always true .stop) ∧
    (∀ n, n < 256 → (pass 255 256).entry (255 + n) = .used .always false .stop) ∧
    (∀ n, n < 256 → (pass 256 256).entry (256 + n) = .used .always false .stop) := by decide +kernel

theorem witness_EventPostOutcome :
    let s : State := { working with index := { working.index with events := [(9, { posted := some 11573, items := [1] })] } }
    let busy : State := { s with index := { s.index with sweeps := (List.range 16).map .hold } }
    (11574 = min 11574 (working.clock.counter / 86400) ∧ 11573 = min 11573 (working.clock.counter / 86400)) ∧
    (s.index.event 9 = some { posted := some 11573, items := [1] } ∧ 11573 ≤ 11573 ∧ 11573 < 11574) ∧
    (working.index.event 9 = none ∧ working.index.events.length < 65536 ∧ working.index.admits [] = true ∧ working.slotFree = true) ∧
    (busy.index.admits [.event 9] = false ∧ s.index.admits [.event 9] = true) ∧
    (s.index.run = none ∧ s.index.sweeps = [] ∧ working.index.run = none ∧ (sweeping s (.cls 0) 1 1).index.run ≠ none ∧
      (sweeping s (.cls 0) 1 1).index.admits [.event 9] = true) ∧
    (s.index.enqueue [.event 9]).sweeps = [.event 9] ∧ (s.index.enqueue [.hold 3]).sweeps = [.hold 3] ∧
    (s.index.enqueue []).sweeps = [] := by decide +kernel

theorem witness_EventPostOutcome_full : eventFull.index.event 9 = none ∧ 65536 ≤ eventFull.index.events.length :=
  ⟨find_many _ _ _ _ (by decide), Nat.le_of_eq (length_many _ _).symm⟩

theorem witness_IndexReads :
    let s := sweeping (holding .retained .never) (.cls 0) 1 1
    256 < 257 ∧ working.index.event 9 = none ∧ working.index.sweeps = [] ∧ working.index.run = none ∧
    { working.index with events := [(9, { posted := none, items := [] })] }.event 9 = some { posted := none, items := [] } ∧
    s.index.sweeps = [.cls 0] ∧ s.index.run = some { limit := 1, cursor := 1, changed := 0 } ∧ 64 < 65 := by decide +kernel

theorem witness_ClassAndEventSteps :
    let s := sweeping (holding .eligible (.day 11573)) (.cls 0) 1 1
    let n := sweeping (holding .eligible (.day 11573)) (.cls 1) 1 1
    let e : State := { s with index := { s.index with
      sweeps := [.event 9], run := some { limit := 2, cursor := 1, changed := 0 }
      events := [(9, { posted := some 3, items := [7, 1] })] } }
    (s.taking = true ∧ s.index.sweeps = [.cls 0] ∧ s.index.run.map (fun u => decide (u.cursor ≤ u.limit)) = some true ∧
      (s.index.item 1).map (fun r => decide (0 ∈ r.classes)) = some true) ∧
    (s.index.event 9 = none ∧ (s.index.item 1).map (fun r => (liveOf r).map (·.event)) = some (some none)) ∧
    (n.index.item 1).map (fun r => r.carries 1) = some false ∧
    (e.index.event 9 = some { posted := some 3, items := [7, 1] } ∧ ([7, 1] : List Nat)[1]? = some 1 ∧
      e.index.run.map (fun u => decide (u.cursor < u.limit)) = some true) := by decide +kernel

theorem witness_SweepCompletion :
    let s := sweeping (withMatter (holding .retained .never) (.lifting allOf0)) (.hold 5) 2 1
    let u : SweepRun := { limit := 1, cursor := 2, changed := 0 }
    (s.taking = true ∧ s.index.sweeps = [.hold 5] ∧ s.index.run = some u ∧ Table.sorted s.hold.custodians = true) ∧
    ((SweepReq.hold 5).past u = true ∧ (SweepReq.hold 5).past { u with cursor := 1 } = false ∧
      (SweepReq.event 9).past { u with cursor := 1 } = true) ∧
    (s.slotFree = true ∧ s.hold.matter 5 = .lifting allOf0 ∧ SweepReq.hold 5 ∉ ([] : List SweepReq)) := by decide +kernel

/-- Ranges at their ends, and a queue with no place. -/
theorem witness_MatterRequests :
    let busy : State := { withMatter working (.active allOf0) with index := { working.index with sweeps := (List.range 16).map .cls } }
    (63 < 64 ∧ 73048 < 73049 ∧ ¬(73048 < 73048) ∧ ¬(5 < 5)) ∧
    (working.taking = true ∧ working.hold.matter 63 = .free ∧ working.slotFree = true ∧
      SweepReq.hold 63 ∉ working.index.waiting ∧ ¬(16 ≤ working.index.sweeps.length)) ∧
    ((withMatter working (.active allOf0)).hold.matter 5 = .active allOf0 ∧ allOf0 ≠ { allOf0 with domains := 2 }) ∧
    (SweepReq.hold 5 ∉ busy.index.waiting ∧ 16 ≤ busy.index.sweeps.length) := by decide +kernel

theorem witness_CustodianSetOutcome :
    let a := withMatter working (.active allOf0)
    let l := withMatter working (.lifting allOf0)
    let busy : State := { a with index := { a.index with sweeps := (List.range 16).map .cls } }
    (working.taking = true ∧ working.hold.maskOf 7 = 0 ∧ (0x20 : BitVec 64) ≠ 0) ∧
    ((List.range 64).filter (fun m => (0#64).getLsbD m != (0x20#64).getLsbD m) = [5] ∧ l.hold.matter 5 = .lifting allOf0) ∧
    (a.hold.find 7 = none ∧ Table.firstFree a.hold.custodians 0 4096 = some 0 ∧ [5].filter a.hold.isActive = [5] ∧
      a.index.admits [.hold 5] = true ∧ a.slotFree = true) ∧
    ({ a.hold with custodians := [(4095, { key := 7, mask := 1 })] }.find 7 = some (4095, 1)) ∧
    busy.index.admits [.hold 5] = false := by decide +kernel

/-- A custodian table with a key and without it. -/
theorem witness_CustodianSetOutcome_find :
    let h := { working.hold with custodians := [(3, { key := 9, mask := 2 }), (4095, { key := 7, mask := 1 })] }
    Table.sorted h.custodians = true ∧ h.find 7 = some (4095, 1) ∧ h.find 8 = none ∧ h.maskOf 8 = 0 := by decide +kernel

theorem witness_CustodianSetOutcome_full :
    Table.firstFree (fullTable 4096 ({ key := 1, mask := 1 } : Custodian)) 0 4096 = none := fullTable_none _ _

theorem witness_HoldStep :
    let s := sweeping (withMatter (holding .eligible (.day 11573)) (.active allOf0)) (.hold 5) 1 1
    let n := sweeping (withMatter (holding .eligible (.day 11573)) .free) (.hold 5) 1 1
    (s.taking = true ∧ s.index.sweeps = [.hold 5] ∧ s.index.run = some { limit := 1, cursor := 1, changed := 0 }) ∧
    (s.index.item 1 = some (item .eligible (.day 11573)) ∧ s.hold.covers 5 0 11573 [7] = true ∧
      (live .eligible).holdMask.getLsbD 5 = false) ∧ n.hold.covers 5 0 11573 [7] = false := by decide +kernel

/-- An ELIGIBLE item that a hold takes out of a full queue ends the due pause. -/
theorem test_holdStep_duePause :
    let h := sweeping (withMatter (holding .eligible (.day 11573)) (.active allOf0)) (.hold 5) 1 1
    let s : State := { h with dispo := { h.dispo with duePause := true } }
    (after .holdSweepStep s).dispo = { s.dispo with queue := [], duePause := false } := by decide +kernel

theorem witness_Releases :
    let s := holding .eligible (.day 11573)
    let a : State := { s with settings := { s.settings with auto := true, grace := 4 }, dispo := { s.dispo with opportunity := true } }
    (s.taking = true ∧ 256 < 257 ∧ (holding .released .never).dispo.list ≠ [] ∧ working.dispo.queue = []) ∧
    (s.dispo.list = [] ∧ s.dispo.queue = [{ item := 1, day := 11570 }] ∧ s.slotFree = true ∧ 1 = min 256 s.dispo.queue.length) ∧
    (s.settings.auto = false ∧ a.settings.auto = true ∧ a.dispo.opportunity = true ∧ a.dispo.list = []) ∧
    (1 ≤ a.dispo.queue.length ∧ (∀ e ∈ a.dispo.queue.take 1, e.day + a.settings.grace ≤ a.clock.counter / 86400) ∧
      a.dispo.queue[1]? = none) ∧
    ((∀ e, s.dispo.queue[0]? = some e → s.clock.counter / 86400 < e.day + s.settings.grace) ∧
      s.dispo.opportunity = false ∧ s.dispo.autoWait = false) := by
  refine ⟨by decide +kernel, by decide +kernel, by decide +kernel, by decide +kernel, ?_, by decide, by decide⟩
  intro e h
  cases h
  decide +kernel

/-- An accepted DISPO_RELEASE ends the AUTO wait (R147). -/
theorem test_dispoRelease_wait :
    let h := holding .eligible (.day 11573)
    (after (.dispoRelease 1 (.fields { first := 1, n := 1 })) { h with dispo := { h.dispo with autoWait := true } }).dispo.autoWait =
      false := by decide +kernel

theorem witness_DueProcessingOutcome :
    let s := holding .retained (.day 11574)
    (s.taking = true ∧ s.clock.state ≠ .unset ∧ s.index.dueSet s.today = [1] ∧ s.dispo.queue.length < 65536 ∧
      s.index.item 1 = some (item .retained (.day 11574))) ∧
    (holding .retained (.day 11575)).index.dueSet s.today = [] := by decide +kernel

/-- Days before, on and after today, in canonical order. -/
theorem witness_DueProcessingOutcome_days :
    let x := { working.index with calendar := [(2, [5, 6]), (7, [1]), (8, [9])] }
    Table.sorted x.calendar = true ∧ x.dueSet 7 = [5, 6, 1] := by decide +kernel

theorem witness_DueProcessingOutcome_full :
    65536 ≤ { working.dispo with queue := many 65536 { item := 2, day := 0 } }.queue.length := Nat.le_of_eq (length_many _ _).symm

theorem witness_DisposalEventOutcome :
    let s := holding .released (.day 11574)
    let h := withMatter s (.active allOf0)
    (s.taking = true ∧ s.slotFree = true ∧ s.clock.state ≠ .unset ∧ s.dispo.list = [1] ∧
      s.index.item 1 = some (item .released (.day 11574)) ∧ (Expiry.day 11574).laterThan s.today = false ∧
      s.hold.coverage 0 11573 [7] = 0) ∧
    (Expiry.day 11575).laterThan s.today = true ∧ h.hold.coverage 0 11573 [7] ≠ 0 ∧ working.dispo.list = [] ∧
    (s.segs.entry abcRef).map (fun e => (e.stored, e.pinned)) = some (true, false) ∧
    ((live .released).segs.countP (fun g => decide (g.ref = abcRef)) = 1 ∧
      (live .released).segs.countP (fun g => decide (g.ref = .overflow 0)) = 0 ∧
      { entry true 0 16777215 none [] with pinned := true }.pinned = true) := by decide +kernel

/-- Two slots of the item disposed of name the one entry, whose two refs they are, in a zone that is FULL: the record counts one entry
freed, and the zone is RECLAIMING and being erased (R151 (1), R158). -/
theorem test_disposalEvent_zone :
    let h := holding .released (.day 11573)
    let seg : ItemSeg := { digest := abc, length := 3, ref := abcRef }
    let s : State := { h with
      index := { h.index with items :=
        [(1, { item .released (.day 11573) with body := .live { live .released with segs := [seg, seg] } })] }
      segs := { h.segs with buckets := [(763776, entry true 0 2 none [])] }
      media := h.media.set 0 ((h.media.get 0).setZone 0 { state := .full, wp := 4096, live := 1, owed := false }) }
    ((after .disposalEvent s).audit.buffer.map (fun r => r.subject.getLast?.map (·.value))) = [some 1] ∧
      (((after .disposalEvent s).media.get 0).zone 0).state = .reclaiming ∧
      ((after .disposalEvent s).media.get 0).op = some (.erase 0) := by decide +kernel

/-- Placements of the least and the most pages, at a zone's end and past it, after a channel that cannot, and where none can. -/
theorem witness_Placement :
    let m := (withEntry working (entry true 0 1 none [])).media
    let e := m.set 0 ((m.get 0).setZone 0 { state := .ingestOpen, wp := 4095, live := 1, owed := false })
    (∀ i : ChanNo, Table.sorted (m.get i).zones = true) ∧ (m.place Settings.blank 1 abcRef).map (·.2) = some ⟨0, 0, 1, 1⟩ ∧
    (m.place Settings.blank 1024 abcRef).map (·.2) = some ⟨0, 0, 1, 1024⟩ ∧ (e.place Settings.blank 1 abcRef).map (·.2) = some ⟨0, 0, 4095, 1⟩ ∧
    (e.place Settings.blank 2 abcRef).map (·.2) = some ⟨0, 1, 0, 2⟩ ∧ ((e.get 0).zoneIn .ingestOpen = some 0 ∧ 4096 < 4095 + 2) ∧
    ((m.set 0 { m.get 0 with state := .fenced }).place Settings.blank 1 abcRef).map (·.2) = some ⟨1, 0, 0, 1⟩ ∧
    ({ e with last := 0 }.place { Settings.blank with reserve := 40000 } 2 abcRef).isNone = true := by decide +kernel

/-- Zones at both ends of a channel, in canonical order. -/
theorem witness_Placement_zones :
    let c := { working.media.get 0 with zones := [(0, { state := .full, wp := 4096, live := 1, owed := false }),
      (8190, { state := .auditOpen, wp := 1, live := 0, owed := false })] }
    (Table.sorted c.zones = true ∧ ∀ e ∈ c.zones, e.1 ≤ 8190) ∧
    (c.zoneIn .auditOpen = some 8190 ∧ c.lowestBlank = some 1 ∧ c.countZones .blank = 8189) := by decide +kernel

theorem witness_Arbiter :
    let r : PageRead := { zone := 0, page := 0, who := .none }
    let g : StagePage := { zone := 0, page := 0, data := [] }
    let c : Channel := { Channel.blank with readQ := [r], ingestQ := [g], reclaimQ := [3] }
    let owed : Channel := { c with askOwed := true }
    let er := fun cond n failed => some ({ zone := 3, cond, count := n, failed, askAfter := true } : Erase)
    let a : Channel := { c with auditQ := [{ first := 0, count := 1 }] }
    let at_ := fun n => a.setZone 7 { state := .auditOpen, wp := n, live := 0, owed := false }
    let low : Settings := { Settings.blank with throttle := 40000 }
    ({ c with op := some .identify }.op.isSome = true ∧ owed.op = none ∧ owed.erase = none ∧
      { owed with erase := er .suspended 1 false }.erase = er .suspended 1 false ∧ { c with state := .offline }.state = .offline) ∧
    ({ c with probe := some { tag := 1, stage := .waiting } }.probe = some { tag := 1, stage := .waiting } ∧ c.erase = none) ∧
    ((a.state = .inService ∧ a.probe = none ∧ a.auditQ = [{ first := 0, count := 1 }]) ∧
      ((at_ 4095).zoneIn .auditOpen = some 7 ∧ ((at_ 4095).zone 7).wp + 1 = 4096 ∧ ((at_ 4094).zone 7).wp + 1 ≠ 4096) ∧
      a.lowestBlank = some 0 ∧ a.zoneIn .auditOpen = none) ∧
    ({ c with erase := er .suspended 8 false }.auditQ = [] ∧ { c with readQ := [], erase := er .suspended 8 false }.readQ = []) ∧
    (c.op = none ∧ c.askOwed = false ∧ 1 ≤ c.credits.read ∧ { c with credits := ⟨0, 1, 1⟩ }.credits.read = 0 ∧ c.state = .inService ∧
      { c with state := .fenced, readQ := [] }.state ≠ .inService ∧ 1 ≤ c.credits.reclaim ∧ { a with state := .fenced }.auditQ ≠ []) ∧
    (State.reset.media.freeZones < low.throttle ∧ ¬State.reset.media.freeZones < Settings.blank.throttle) ∧
    (1 ≤ low.readWeight ∧ 1 ≤ low.ingestWeight ∧ 1 ≤ low.reclaimWeight ∧ Channel.blank.readQ = []) ∧
    ({ c with op := some (.erase 3), erase := er .running 7 false }.erase = er .running 7 false ∧ 7 < 8 ∧ 8 ≤ 8 ∧
      c.op ≠ some (.erase 3) ∧ er .running 0 true = some { zone := 3, cond := .running, count := 0, failed := true, askAfter := true }) := by
  decide +kernel

theorem blankFrom_full (v : Zone) (h : v.state ≠ .blank) (c : Channel) (hc : c.zones = fullTable 8191 v) (n k : Nat)
    (hk : k + n ≤ 8191) : c.blankFrom k n = none := by
  induction n generalizing k with
  | zero => rfl
  | succ n ih =>
    have hz : c.zone k = v := by
      simp only [Channel.zone, Table.get, hc, find_fullTable 8191 v (show k < 8191 by omega), Option.getD_some]
    rw [Channel.blankFrom, hz, if_neg h, ih _ (by omega)]

/-- A channel without a zone for an audit page. -/
def noRoom (zs : Table Zone) : Channel := { Channel.blank with zones := zs, auditQ := [{ first := 0, count := 1 }] }

theorem noRoom_none (zs : Table Zone) (hz : zs = fullTable 8191 { state := .full, wp := 4096, live := 1, owed := false }) :
    (noRoom zs).zoneIn .auditOpen = none ∧ (noRoom zs).lowestBlank = none := by
  refine ⟨?_, blankFrom_full _ (by decide) (noRoom zs) hz Config.dataZones 0 (by decide)⟩
  simp only [Channel.zoneIn, Option.map_eq_none_iff, List.find?_eq_none, noRoom, hz, fullTable, List.mem_map]
  rintro _ ⟨n, _, rfl⟩
  simp

theorem witness_Arbiter_noRoom :
    (noRoom (fullTable 8191 { state := .full, wp := 4096, live := 1, owed := false })).zoneIn .auditOpen = none ∧
      (noRoom (fullTable 8191 { state := .full, wp := 4096, live := 1, owed := false })).lowestBlank = none :=
  noRoom_none _ rfl

theorem witness_ProgramOutcome :
    let p : StagePage := { zone := 0, page := 0, data := [0x61, 0x62, 0x63] }
    let a := chan working (fun c => { c with op := some (.programAudit 0 0 { first := 0, count := 1 } true), fails := 3 })
    let both : State := { shared with ingest := { shared.ingest with ctxs := shared.ingest.ctxs.map (fun c =>
      (c.1, { c.2 with body := c.2.body.map (fun o => { o with committing := true }) })) } }
    (shared.powered = true ∧ (shared.media.get 0).op = some (.programIngest p true) ∧
      (shared.media.get 0).uploadOf p true = some upload ∧
      shared.segs.entry abcRef = some (entry false 0 0 (some slot0) [⟨1, 1, 0⟩]) ∧ slot0 ∉ ([⟨1, 1, 0⟩] : List SlotRef) ∧
      (shared.slotAt slot0).bind Slot.decl = some decl ∧ (shared.slotAt ⟨1, 1, 0⟩).bind Slot.decl = some decl) ∧
    (((shared.media.get 0).uploads.map (·.ref)).Nodup ∧ ((shared.media.get 0).uploads.map (fun u => (u.zone, u.first))).Nodup ∧
      (chan shared (fun c => { c with fails := 3 })).media.c0.fails + 1 = 4) ∧
    (upload.passed + 1 = upload.count ∧ { upload with count := 2 }.passed + 1 ≠ 2 ∧ (writing.media.get 0).fails + 1 ≠ 4) ∧
    ((shared.ingestDone 0 p true true).ingest.ready = [] ∧ (both.ingestDone 0 p true true).ingest.ready = [0, 1] ∧
      (both.ingestDone 0 p true true).slotFree = true ∧ both.taking = true) ∧
    (a.powered = true ∧ (a.media.get 0).fails + 1 = 4 ∧ (a.media.get 0).state = .inService ∧
      ∀ i : ChanNo, Table.sorted (a.media.get i).zones = true) := by decide +kernel

/-- A page that a link reset has passed over, one whose upload has been withdrawn, and an audit page passed over, at the third fail and
before it; and a page at each end of an upload's run. -/
theorem witness_ProgramOutcome_left :
    let p : StagePage := { zone := 0, page := 0, data := [0x61, 0x62, 0x63] }
    let left := fun o n => (chan working (fun c => { c with op := some o, fails := n })).media.get 0
    let up := { working.media.get 0 with uploads := [{ upload with first := 2, count := 3 }] }
    ((left (.programIngest p false) 0).op = some (.programIngest p false) ∧ (left (.programIngest p false) 0).uploadOf p false = none ∧
      (left (.programIngest p true) 3).uploadOf p true = none ∧ (left (.programIngest p true) 3).fails + 1 = 4 ∧
      (left (.programAudit 0 0 { first := 0, count := 1 } false) 3).op = some (.programAudit 0 0 { first := 0, count := 1 } false) ∧
      (left (.programIngest p true) 2).fails + 1 ≠ 4 ∧ (left (.programIngest p true) 3).state = .inService) ∧
    ((up.uploadOf { p with page := 2 } true).isSome = true ∧ (up.uploadOf { p with page := 4 } true).isSome = true ∧
      up.uploadOf { p with page := 1 } true = none ∧ up.uploadOf { p with page := 5 } true = none) := by decide +kernel

theorem witness_EraseOutcome :
    let s := fun o e => chan working (fun c => { c with op := some o, erase := some e, readQ := [{ zone := 0, page := 0, who := .none }] })
    let e : Erase := ⟨3, .running, 0, false, false⟩
    ((s (.erase 3) e).taking = true ∧ ((s (.erase 3) e).media.get 0).op = some (.erase 3)) ∧
    (((s .suspend e).media.get 0).op = some .suspend ∧ ((s .suspend e).media.get 0).erase = some e) ∧
    (((s .resume e).media.get 0).op = some .resume ∧ ((s .resume e).media.get 0).readQ ≠ [] ∧ { e with count := 7 }.count < 8 ∧
      ¬({ e with count := 8 }.count < 8)) := by decide +kernel

theorem witness_ReadOutcome :
    let q : SegRead := { id := 0, tag := 9, item := 1, skip := 1, count := 2, parts := [.pending] }
    let s := reading (.segRead 0 0)
    let w : State := { reading (.verify 0) with segs := { (reading (.verify 0)).segs with verifyWait := [0] } }
    let room := fun n => (chan w (fun c => { c with readQ := List.replicate n { zone := 0, page := 0, who := .none } })).media.get 0
    (s.taking = true ∧ (s.media.get 0).op = some (.read { zone := 0, page := 0, who := .segRead 0 0 }) ∧
      s.segs.reads.find? (fun x => x.id == 0) = some q ∧ s.index.isGone 1 = false ∧ holdingTomb.index.isGone 1 = true) ∧
    (.pending ∈ ([.pending, .pending] : List ReadPart).set 0 .failed ∧ .offline ∈ ([.pending, .offline] : List ReadPart).set 0 .failed ∧
      .pending ∉ ([.pending, .offline] : List ReadPart).set 0 .failed ∧ .failed ∈ ([.pending] : List ReadPart).set 0 .failed ∧
      ([.pending, .passed [1]] : List ReadPart).set 0 (.passed [2]) = [[2], [1]].map .passed) ∧
    ((reading (.verify 0)).segs.verifies.find? (fun x => x.place == 0)).map (fun v => (v.next + 1, v.loc.count)) = some (1, 1) ∧
    0 + 1 ≠ { chan := 0, zone := 0, first := 0, count := 2 : Loc }.count ∧
    ((reading (.audit 1 0 16 0 64)).media.get 0).op = some (.read { zone := 0, page := 0, who := .audit 1 0 16 0 64 }) ∧
    ((reading .none).media.get 0).op = some (.read { zone := 0, page := 0, who := .none }) ∧
    ((w.waitingVerify 0).map (·.loc.chan) = some 0 ∧ (w.media.get 0).state ≠ .offline ∧ 1 ≤ (room 31).readRoom ∧
      (room 32).readRoom = 0 ∧ ((chan w (fun c => { c with state := .offline })).media.get 0).state = .offline) := by
  decide +kernel

/-- A verify with a page to go, whose channel has the place, has none, and is OFFLINE. -/
theorem witness_ReadOutcome_next :
    let s := reading (.verify 0)
    let w : State := { s with segs := { s.segs with verifies := s.segs.verifies.map (fun v =>
      { v with length := 16385, loc := { v.loc with count := 2 } }) } }
    let full := chan w (fun c => { c with readQ := List.replicate 32 { zone := 0, page := 0, who := .none } })
    let off := chan w (fun c => { c with state := .offline })
    ((w.segs.verifies.find? (fun v => v.place == 0)).map (fun v => decide (v.next + 1 ≠ v.loc.count)) = some true ∧
      1 ≤ (w.media.get 0).readRoom ∧ (full.media.get 0).readRoom = 0 ∧ (off.media.get 0).state = .offline) ∧
    (((after (.readComplete 0 (some [])) w).media.get 0).op = some (.read { zone := 0, page := 1, who := .verify 0 }) ∧
      (after (.readComplete 0 (some [])) full).segs.verifyWait = [0]) := by decide +kernel

theorem witness_TimeoutOutcome :
    let i := chan working (fun c => { c with op := some .identify })
    let r := reading (.segRead 0 0)
    (working.taking = true ∧ (working.media.get 0).op = none) ∧ ((writing.media.get 0).op.isSome = true ∧
      (writing.media.get 0).state = .inService ∧ ∀ i : ChanNo, Table.sorted (writing.media.get i).zones = true) ∧
    (i.media.get 0).op = some .identify ∧
    ((chan writing (fun c => { c with state := .offline, markFenced := true })).media.get 0).state = .offline ∧
    ((r.media.get 0).op = some (.read { zone := 0, page := 0, who := .segRead 0 0 }) ∧
      (r.segs.reads.find? (fun x => x.id == 0)).map (·.parts) = some [.pending] ∧
      (r.segs.verifies.find? (fun x => x.place == 0)).isSome = true) := by decide +kernel

theorem witness_ProbeOutcome :
    let p := fun (st : ProbeStage) (o : Option Op) => chan working (fun c => { c with
      state := .offline, markFenced := true, probe := some { tag := 4, stage := st }, op := o })
    (working.taking = true ∧ 3 < 4 ∧ (working.media.get 3).state = .inService) ∧
    (((p .waiting none).media.get 0).state ≠ .inService ∧ ((p .waiting none).media.get 0).erase = none ∧
      ((p .waiting (some .identify)).media.get 0).op.isSome = true) ∧
    ((chan working (fun c => { c with state := .fenced })).media.get 0).probe = none ∧
    (((p .inFlight (some (.probeRead 7))).media.get 0).op = some (.probeRead 7) ∧ probePage 0 7 ≠ []) ∧
    (((p .inFlight (some .probeErase)).media.get 0).op = some .probeErase ∧
      ((p .inFlight (some (.probeProgram 4095))).media.get 0).op = some (.probeProgram 4095)) ∧
    (((p .restoring none).media.get 0).fenceOwed = none ∧ (p .restoring none).slotFree = true) := by decide +kernel

/-- The first and the last byte of the test page of page 255 on channel 3 (R175 (2)): 255 + 192 = 447 and 16,383 + 447 = 16,830, less 256
and 65 times 256. -/
theorem test_probePage : (probePage 3 255)[0]? = some 191 ∧ (probePage 3 255)[16383]? = some 190 := by decide +kernel

/-- A restoration below SPACE_THROTTLE and at it: the INGEST credit 1, and INGEST_WEIGHT (log entry 18). -/
theorem test_channelRestore_credits :
    let s := fun (throttle : Nat) => { chan working (fun c => { c with
      state := .fenced, markFenced := true, probe := some { tag := 4, stage := .restoring } }) with
      settings := { working.settings with throttle, ingestWeight := 9 } }
    (((after (.channelRestore 0) (s 32765)).media.get 0).credits.ingest = 1 ∧
      ((after (.channelRestore 0) (s 32764)).media.get 0).credits.ingest = 9) := by decide +kernel

theorem witness_AuditReadOutcome :
    let s : State := { working with audit := { working.audit with
      buffer := [recAt 64], counter := 65, map := [{ first := 0, count := 64, chan := 0, zone := 0, page := 0 }] } }
    (s.taking = true ∧ 16 < 17 ∧ s.audit.counter ≤ 65) ∧ (64 < s.audit.counter ∧ ∃ r ∈ s.audit.buffer, r.seq = 64) ∧
    (63 < s.audit.counter ∧ (∀ r ∈ s.audit.buffer, r.seq ≠ 63) ∧ (s.audit.mapped 63).isSome = true ∧
      (s.media.get 0).state ≠ .offline ∧ 1 ≤ (s.media.get 0).readRoom) := by decide +kernel

theorem witness_OwedRecords :
    let f := chan working (fun c => { c with state := .fenced, markFenced := true, fenceOwed := some .timeout })
    let z := chan working (fun c => { c with zones := [(3, { state := .retired, wp := 0, live := 0, owed := true })] })
    let u : State := { working with audit := { working.audit with
      startOwed := some { cause := .powerOn, intact := true, clock := .running, second := 3 }, buffer := [recAt 0], counter := 1 } }
    (f.taking = true ∧ f.slotFree = true ∧ (f.media.get 0).fenceOwed = some .timeout) ∧
    ((∀ j : ChanNo, (z.media.get j).fenceOwed = none) ∧ (z.media.get 0).owedZones = [3]) ∧
    (working.slotFree = true ∧ ∀ j : ChanNo, (working.media.get j).fenceOwed = none ∧ (working.media.get j).owedZones = []) ∧
    (u.audit.startOwed.isSome = true ∧ u.slotFree = true ∧ u.store.undrained = 1 ∧ u.audit.buffer[1 - 1]? = some (recAt 0) ∧
      working.audit.startOwed = none ∧ working.store.undrained = 0) := by
  decide +kernel

/-- Two zones whose retirement is owed, one that owes none between them. -/
theorem witness_OwedRecords_zones :
    let c := { working.media.get 0 with zones := [(2, { state := .retired, wp := 0, live := 0, owed := true }),
      (5, { state := .retired, wp := 0, live := 0, owed := false }), (9, { state := .retired, wp := 0, live := 0, owed := true })] }
    Table.sorted c.zones = true ∧ c.owedZones = [2, 9] ∧ (c.zone 2).owed = true ∧ (c.zone 5).owed = false := by decide +kernel

/-- The last slot of the buffer, and none; a record's bytes. -/
theorem witness_OwedRecords_slots :
    (full working).slotFree = false ∧ working.slotFree = true ∧
      (working.audit.nextRecord 7 0 .genesis [Fld.u8 3]).bytes.take 16 = beBytes 6 working.audit.counter ++ beBytes 8 7 ++ [0, 3] :=
  ⟨full_slotFree _, by decide +kernel, by decide +kernel⟩

/-- A drain with a page outstanding, one that moves to another channel, one that is stalled; and each page it can present. -/
theorem witness_AuditDrain :
    let audit := fun (n : Nat) (held : List AuditPage) => { working.audit with
      buffer := (List.range n).map recAt, counter := n, drain := some 0, held := held }
    let opened := (chan working (fun c => { c with zones := [(9, { state := .auditOpen, wp := 5, live := 0, owed := false })] })).media
    let shut := fun (m : Media) => m.set 0 { m.get 0 with state := .offline }
    ((chan working (fun c => { c with auditQ := [{ first := 0, count := 1 }] })).media.outstanding ≠ [] ∧ opened.outstanding = []) ∧
    (((opened.get 0).state = .inService ∧ (opened.get 0).zoneIn .auditOpen = some 9 ∧ (opened.get 1).lowestBlank = some 0) ∧
      ((shut opened).get 0).state ≠ .inService ∧ (0 : ChanNo) < 1 ∧ (shut opened).drainChoice = some 1 ∧
      (shut (shut opened)).drainChoice = some 1) ∧
    (working.audit.drain = none ∧ (audit 1 []).drain = some 0 ∧ ((shut opened).get 0).state ≠ .inService ∧
      (working.media.get 0).auditPages.length < 4) ∧
    ((audit 1 [{ first := 0, count := 1 }]).held = [{ first := 0, count := 1 }] ∧
      { media := opened, audit := audit 64 [] : Store }.undrained = 64 ∧ { media := opened, audit := audit 63 [] : Store }.undrained = 63 ∧
      (audit 63 []).buffer[63 - 63]? = some (recAt 0) ∧ (recAt 0).since + 5 ≤ 5 ∧ ¬((recAt 0).since + 5 ≤ 4)) := by decide +kernel

/-- An audit page in flight and one queued; settling that presents a page, which the module then takes, with every weight at least 1; and
one whose last taking of work hands no page back. -/
theorem witness_AuditDrain_settle :
    let c := { working.media.get 0 with op := some (.programAudit 9 4 { first := 0, count := 1 } true), auditQ := [{ first := 1, count := 1 }] }
    let s : Store := { working.store with audit := { working.audit with buffer := [recAt 0], counter := 1, drain := some 0 } }
    let set := working.settings
    let round := fun x : Store => (((x.dispatch set 0).dispatch set 1).dispatch set 2).dispatch set 3
    let u := round (s.present 5)
    (c.op = some (.programAudit 9 4 { first := 0, count := 1 } true) ∧ c.auditPages.length = 2 ∧ (working.media.get 0).op = none) ∧
    (1 ≤ set.readWeight ∧ 1 ≤ set.ingestWeight ∧ 1 ≤ set.reclaimWeight) ∧
    ((u.media.get 0).op = some (.programAudit 0 0 { first := 0, count := 1 } true) ∧
      (round (u.present 5)).audit = (u.present 5).audit) := by decide +kernel

/-! ### Witnesses of the step statements -/

/-- A part with one item, RETAINED until a day to come, and an elapsed second in front of its queue. -/
def kept : State := { holding .retained (.day 11940) with pending := [.timeBaseSecond] }

theorem kept_step : step kept = .next (after .timeBaseSecond (holding .retained (.day 11940))) := rfl

theorem kept_item (n : Nat) : kept.index.item n = if n = 1 then some (item .retained (.day 11940)) else none := rfl

theorem kept_live {n : Nat} {r : ItemRec} {l : LiveItem} (h : kept.index.item n = some r) (hl : r.body = .live l) :
    n = 1 ∧ r = item .retained (.day 11940) ∧ l = live .retained := by
  rw [kept_item] at h
  split at h
  · cases h; cases hl; exact ⟨‹_›, rfl, rfl⟩
  · cases h

theorem kept_entry (ref : EntryRef) :
    kept.segs.entry ref = if ref = .bucket 763776 then some (entry true 0 1 none []) else none := by
  cases ref with
  | bucket b => simp only [EntryRef.bucket.injEq]; rfl
  | overflow b => rfl

theorem kept_entry_some {ref : EntryRef} {e : SegEntry} (h : kept.segs.entry ref = some e) :
    ref = .bucket 763776 ∧ e = entry true 0 1 none [] := by
  rw [kept_entry] at h
  split at h
  · cases h; exact ⟨‹_›, rfl⟩
  · cases h

/-- Each entry has as many refs as the slots of the item disposed of that name it. -/
theorem witness_DisposalEventOutcome_freed : ∀ ref e, (holding .released (.day 11574)).segs.entry ref = some e →
    e.stored = true ∧ e.pinned = false ∧ (live .released).segs.countP (fun g => decide (g.ref = ref)) ≤ e.refs := by
  intro ref e h
  obtain ⟨rfl, rfl⟩ := kept_entry_some h
  decide +kernel

theorem kept_zone (i : ChanNo) (z : Nat) : (kept.media.get i).zone z =
    if i = 0 ∧ z = 0 then { state := .ingestOpen, wp := 1, live := 1, owed := false } else Zone.blank := by
  have h : (kept.media.get i).zones = if i = 0 then [(0, { state := .ingestOpen, wp := 1, live := 1, owed := false })] else [] := by
    revert i; decide +kernel
  unfold Channel.zone Table.get
  rw [h]
  by_cases hi : i = 0 <;> by_cases hz : z = 0 <;> simp [hi, hz, Table.find]

theorem kept_queues (i : ChanNo) : (kept.media.get i).reclaimQ = [] ∧ (kept.media.get i).erase = none ∧
    (kept.media.get i).op = none ∧ (kept.media.get i).uploads = [] := by
  revert i; decide +kernel

theorem kept_numbers : NumbersInv kept := by
  refine ⟨by decide, fun n => ?_⟩
  show _ ↔ 1 ≤ n ∧ n < 2
  rw [kept_item]
  split <;> simp <;> omega

theorem witness_ClockNeverTurnsBack : ClockInv kept ∧ ∃ t, step kept = .next t := ⟨⟨by decide, by decide⟩, _, kept_step⟩

theorem kept_day (d : Nat) : kept.index.day d = if d = 11940 then [1] else [] := by
  show (if d = 11940 then some [1] else none).getD [] = _
  split <;> rfl

theorem witness_PlacesStayTrue : PlacesInv kept ∧ ∃ t, step kept = .next t := by
  refine ⟨⟨kept_numbers, by decide, fun d n => ?_, fun d => ?_, fun n => ⟨nofun, ?_⟩, by decide, fun n => ⟨nofun, ?_⟩, by decide,
    by decide, ?_⟩, _, kept_step⟩
  · rw [kept_day]
    constructor
    · split
      · rename_i h; subst h; intro h
        rw [List.mem_singleton] at h; subst h; exact ⟨_, _, rfl, rfl, rfl, rfl⟩
      · nofun
    · rintro ⟨r, l, h, hl, -, he⟩
      obtain ⟨rfl, rfl, -⟩ := kept_live h hl
      cases he; decide
  · rw [kept_day]; split <;> decide
  · rintro ⟨r, l, h, hl, hs⟩; obtain ⟨-, -, rfl⟩ := kept_live h hl; cases hs
  · rintro ⟨r, l, h, hl, hs⟩; obtain ⟨-, -, rfl⟩ := kept_live h hl; cases hs
  · intro n r l h hl he; obtain ⟨-, rfl, -⟩ := kept_live h hl; cases he

theorem witness_CountsStayTrue :
    (HoldCountInv kept ∧ InUseInv kept ∧ MasksInv kept ∧ CustodiansInv kept) ∧ ∃ t, step kept = .next t := by
  refine ⟨⟨⟨fun n r l h hl => ?_, nofun⟩, ⟨kept_numbers, by decide, by decide, fun c => ?_⟩,
    ⟨kept_numbers, by decide, fun n r l m h hl hm => ?_, nofun, nofun⟩, by decide, nofun, nofun⟩, _, kept_step⟩
  · obtain ⟨-, -, rfl⟩ := kept_live h hl; rfl
  · have h : (kept.policy.cls c).inUse = if c = 0 then 1 else 0 := by
      show ((if c = 0 then some ({ state := .defined oneYear, inUse := 1 } : ClassRec) else none).getD _).inUse = _
      split <;> rfl
    rw [h]
    show _ = [(1, item .retained (.day 11940))].countP _
    by_cases hc : c = 0 <;> simp [item, ItemRec.carries, hc]
  · obtain ⟨-, -, rfl⟩ := kept_live h hl; simp [live] at hm

theorem kept_zones : ZonesInv kept := by
  refine fun i => ⟨by revert i; decide +kernel, fun z hz => ?_⟩
  rw [kept_zone] at hz ⊢
  split <;> simp_all [Zone.blank]

theorem kept_refs (ref : EntryRef) : kept.index.refsTo ref = if ref = .bucket 763776 then 1 else 0 := by
  show ([(1, item .retained (.day 11940))].map _).sum = _
  by_cases h : ref = .bucket 763776 <;> simp [item, live, abcRef, h, eq_comm]

theorem kept_slot (w : SlotRef) : kept.slotAt w = none := by
  have h : kept.ctxOf w = none := by
    unfold State.ctxOf Ingest.named
    split <;> rfl
  unfold State.slotAt
  rw [h]; rfl

theorem witness_StorageLawsHold : StorageInv kept ∧ ∃ t, step kept = .next t := by
  refine ⟨⟨kept_numbers, by decide, ⟨by decide, nofun, nofun, nofun, by decide, nofun⟩, ?_, ?_, ?_⟩, _, kept_step⟩
  · refine ⟨by decide, fun ref h => ?_, fun ref e h _ => ?_, fun ref e h hs => ?_, ?_, ?_, fun ref e w h hw => ?_⟩
    · rw [kept_entry] at h; rw [kept_refs]
      split at h
      · cases h
      · exact ⟨if_neg ‹_›, rfl⟩
    · obtain ⟨rfl, rfl⟩ := kept_entry_some h
      exact ⟨rfl, rfl, rfl, by decide, fun _ => ⟨by rw [kept_refs]; rfl, by decide⟩, nofun, fun _ => .inr (by decide)⟩
    · obtain ⟨-, rfl⟩ := kept_entry_some h; cases hs
    · intro w v d hv; rw [kept_slot] at hv; cases hv
    · intro w d hv; rw [kept_slot] at hv; cases hv
    · obtain ⟨-, rfl⟩ := kept_entry_some h; cases hw
  · refine ⟨?_, fun i z => ?_, fun ref e h => ?_, fun r1 r2 e1 e2 hr h1 h2 => ?_, fun i u hu => ?_, fun i => ?_, fun _ ref e h hs => ?_⟩
    · exact kept_zones
    · rw [kept_zone]
      show _ = ([(EntryRef.bucket 763776, entry true 0 1 none [])].map _).sum
      by_cases h : i = 0 ∧ z = 0
      · obtain ⟨rfl, rfl⟩ := h; rfl
      · rw [if_neg h]
        show 0 = (if (0 : ChanNo) = i ∧ 0 = z then 1 else 0) + 0
        rw [if_neg (fun k => h ⟨k.1.symm, k.2.symm⟩), Nat.zero_add]
    · obtain ⟨rfl, rfl⟩ := kept_entry_some h; decide
    · exact absurd ((kept_entry_some h1).1.trans (kept_entry_some h2).1.symm) hr
    · rw [(kept_queues i).2.2.2] at hu; cases hu
    · rw [(kept_queues i).2.2.2]; decide
    · obtain ⟨-, rfl⟩ := kept_entry_some h; cases hs
  · refine ⟨fun i z hz => ?_, fun i => ?_, fun i e he => ?_, fun i z hz => ?_, fun _ i z hz => ?_⟩
    · rw [(kept_queues i).1] at hz; cases hz
    · rw [(kept_queues i).1]; decide
    · rw [(kept_queues i).2.1] at he; cases he
    · rw [(kept_queues i).2.2.1] at hz; cases hz
    · rw [kept_zone] at hz; split at hz <;> cases hz

theorem witness_TrailIsKept : BufferInv kept ∧ ∃ t, step kept = .next t := ⟨⟨by decide, by decide, nofun⟩, _, kept_step⟩

theorem witness_ConfigurationStaysLegal :
    (SettingsInv kept ∧ MarksInv kept ∧ ZonesInv kept ∧ TablesInv kept) ∧ ∃ t, step kept = .next t := by
  refine ⟨⟨⟨fun n lo hi h => ?_, by decide⟩, by unfold MarksInv; decide +kernel, kept_zones, by unfold TablesInv; decide +kernel⟩, _, kept_step⟩
  match n, h with
  | 0, h | 1, h | 2, h | 3, h | 4, h | 5, h | 6, h | 7, h | 8, h | 9, h => cases h; decide
  | _ + 10, h => cases h

/-- A disposal event disposes of the item at the head of the list. -/
theorem witness_NothingIsLostEarly :
    let s : State := { holding .released (.day 11574) with pending := [.disposalEvent] }
    NumbersInv s ∧ ∃ t r, step s = .next t ∧ t.index.item 1 = some r ∧ r.body = .disposed 1000000000 := by
  refine ⟨⟨by decide, fun n => ?_⟩, _, _, rfl, by rfl, by decide +kernel⟩
  show (if n = 1 then some (item .released (.day 11574)) else none).isSome = true ↔ 1 ≤ n ∧ n < 2
  split <;> simp <;> omega

/-- A CLOCK_SET in COMPLIANT mode far past the HWM. -/
theorem witness_ComplianceHolds :
    let s : State := { holding .retained (.day 11940) with
      compliant := true, pending := [.clockSet 1 (.fields 2000000000)], clock := { working.clock with state := .unset }
      policy := { working.policy with classes := [(0, { state := .locked oneYear, inUse := 1 })] } }
    s.compliant = true ∧ 1 < s.index.next ∧ ∃ t, step s = .next t ∧ t.clock.counter = 999999999 + 2678400 :=
  ⟨rfl, by decide, _, rfl, by decide +kernel⟩

end Sys2Proof.Tests
end

section
/-! The expiry arithmetic of the Retention Clock and the Policy Unit: what the sent-day clamp (R20), the class expiry (R21, R22), the
combination (R92) and the merge (R93) compute, and the statement about them. -/

namespace Sys2Proof.Machine

/-! ### The sent-day clamp -/

/-- The raw sent day is capped at the archive's last day (R20 (1)), then clamped to the range from S - B to S (R20 (2)). -/
theorem sentClamp_eq_of_raw {sent S B raw : Nat} (hraw : raw = if 73048 < sent / 86400 then 73048 else sent / 86400) :
    sentClamp sent S B = if raw < S - B then (S - B, true) else if S < raw then (S, true) else (raw, false) := by
  have hcap : min (sent / Config.daySeconds) Config.dayMax = raw := by
    simp only [Config.daySeconds, Config.dayMax]
    split at hraw <;> omega
  have hclamp : sentClamp sent S B = (max (S - B) (min raw S), max (S - B) (min raw S) != raw) := by
    rw [sentClamp, hcap]
  rw [hclamp]
  split
  next hlow =>
    have hday : max (S - B) (min raw S) = S - B := by omega
    have hchanged : S - B ≠ raw := by omega
    rw [hday, bne_iff_ne.mpr hchanged]
  next hlow =>
    split
    next hhigh =>
      have hday : max (S - B) (min raw S) = S := by omega
      have hchanged : S ≠ raw := by omega
      rw [hday, bne_iff_ne.mpr hchanged]
    next hhigh =>
      have hday : max (S - B) (min raw S) = raw := by omega
      rw [hday, bne_self_eq_false]

/-! ### The class expiry -/

theorem anchorOf_of_permanent {c : ClassDef} (hp : c.permanent = true) (S sent : Nat) (key : Option (Option Nat)) :
    anchorOf c S sent key = .never := by
  simp [anchorOf, hp]

theorem anchorOf_of_awaiting {c : ClassDef} (hp : c.permanent = false) (he : c.anchor = .event) (S sent : Nat) :
    anchorOf c S sent (some none) = .pending := by
  simp [anchorOf, hp, he]

/-- The four cases of R21 (2) that give an anchor day. -/
theorem anchorOf_eq_day {c : ClassDef} {S sent A : Nat} {key : Option (Option Nat)} (hp : c.permanent = false)
    (hA : c.anchor = .ingest ∧ A = S ∨ c.anchor = .sent ∧ A = sent ∨
      c.anchor = .event ∧ (key = none ∧ A = S ∨ key = some (some A))) :
    anchorOf c S sent key = .day A (decide (c.anchor = .event ∧ key = none)) := by
  obtain ⟨ha, rfl⟩ | ⟨ha, rfl⟩ | ⟨ha, ⟨rfl, rfl⟩ | rfl⟩ := hA <;> simp [anchorOf, hp, ha]

/-- R22 with the date of the anchor day, the target date and the day C named as the rule names them. -/
theorem periodExpiry_eq_of_date {c : ClassDef} {S A y m d y2 m2 d2 C : Nat} (hdate : dateOf A = (y, m, d))
    (hy : y2 = y + c.py + (m - 1 + c.pm) / 12) (hm : m2 = (m - 1 + c.pm) % 12 + 1) (hd : d2 = min d (monthLen y2 m2))
    (hC : C = dayNumber y2 m2 d2 + c.pd) :
    periodExpiry c S A =
      if 2199 < y2 ∨ 73048 < C ∨ 73048 < S + c.fd then .never else .day (max C (S + c.fd)) := by
  simp only [periodExpiry, hdate, Config.dayMax, ← hy, ← hm, ← hd, ← hC]
  by_cases hyear : 2199 < y2
  · rw [if_pos hyear, if_pos (.inl hyear)]
  · by_cases hday : 73048 < C
    · rw [if_neg hyear, if_pos hday, if_pos (.inr (.inl hday))]
    · simp only [hyear, hday, false_or, if_false]

theorem classExpiry_of_anchor_never {c : ClassDef} {S sent : Nat} {key : Option (Option Nat)}
    (h : anchorOf c S sent key = .never) : classExpiry c S sent key = (.never, false) := by
  simp [classExpiry, h]

theorem classExpiry_of_anchor_pending {c : ClassDef} {S sent : Nat} {key : Option (Option Nat)}
    (h : anchorOf c S sent key = .pending) : classExpiry c S sent key = (.pending, false) := by
  simp [classExpiry, h]

theorem classExpiry_of_anchor_day {c : ClassDef} {S sent A : Nat} {key : Option (Option Nat)} {noKey : Bool}
    (h : anchorOf c S sent key = .day A noKey) : classExpiry c S sent key = (periodExpiry c S A, noKey) := by
  simp [classExpiry, h]

/-! ### The merge (TABLE 4-4) -/

@[simp] theorem Expiry.pending_merge (n : Expiry) : Expiry.merge .pending n = n := by cases n <;> rfl

@[simp] theorem Expiry.never_merge (n : Expiry) : Expiry.merge .never n = .never := by cases n <;> rfl

@[simp] theorem Expiry.day_merge_day (a b : Nat) : Expiry.merge (.day a) (.day b) = .day (max a b) := rfl

@[simp] theorem Expiry.day_merge_pending (a : Nat) : Expiry.merge (.day a) .pending = .day a := rfl

@[simp] theorem Expiry.day_merge_never (a : Nat) : Expiry.merge (.day a) .never = .never := rfl

/-- The third law of the device (R93). -/
theorem Expiry.notEarlier_merge (old new : Expiry) : Expiry.notEarlier old (old.merge new) := by
  cases old with
  | pending => trivial
  | never => rw [never_merge]; trivial
  | day a =>
    cases new with
    | day b => exact Nat.le_max_left a b
    | pending => exact Nat.le_refl a
    | never => trivial

/-! ### The combination over a class set (R92) -/

theorem Expiry.combine_eq_never_iff (a b : Expiry) : a.combine b = .never ↔ a = .never ∨ b = .never := by
  cases a <;> cases b <;> simp [combine]

theorem Expiry.combine_eq_pending_iff (a b : Expiry) :
    a.combine b = .pending ↔ (a ≠ .never ∧ b ≠ .never) ∧ (a = .pending ∨ b = .pending) := by
  cases a <;> cases b <;> simp [combine]

theorem Expiry.combine_eq_day_iff (a b : Expiry) (d : Nat) :
    a.combine b = .day d ↔ ∃ x y, a = .day x ∧ b = .day y ∧ max x y = d := by
  cases a <;> cases b <;> simp [combine]

theorem exists_mem_cons_and {α : Type} {P : α → Prop} (x : α) (xs : List α) :
    (∃ y ∈ x :: xs, P y) ↔ P x ∨ ∃ y ∈ xs, P y := by
  simp only [List.mem_cons, exists_eq_or_imp]

theorem combineAll_singleton (e : Expiry × Bool) : combineAll [e] = e := rfl

theorem combineAll_cons_cons (e f : Expiry × Bool) (es : List (Expiry × Bool)) :
    combineAll (e :: f :: es) = combineAll ((e.1.combine f.1, e.2 || f.2) :: es) := rfl

theorem combineAll_snd (es : List (Expiry × Bool)) : (combineAll es).2 = es.any (·.2) := by
  cases es with
  | nil => rfl
  | cons e es =>
    induction es generalizing e with
    | nil => simp [combineAll_singleton]
    | cons f es ih => simp [combineAll_cons_cons, ih, Bool.or_assoc]

theorem combineAll_eq_never_iff (e : Expiry × Bool) (es : List (Expiry × Bool)) :
    (combineAll (e :: es)).1 = .never ↔ ∃ x ∈ e :: es, x.1 = .never := by
  induction es generalizing e with
  | nil => simp [combineAll_singleton]
  | cons f es ih => simp [combineAll_cons_cons, ih, Expiry.combine_eq_never_iff, or_assoc]

theorem combineAll_eq_pending_iff (e : Expiry × Bool) (es : List (Expiry × Bool)) :
    (combineAll (e :: es)).1 = .pending ↔ (∀ x ∈ e :: es, x.1 ≠ .never) ∧ ∃ x ∈ e :: es, x.1 = .pending := by
  induction es generalizing e with
  | nil => simp +contextual [combineAll_singleton]
  | cons f es ih =>
    rw [combineAll_cons_cons, ih]
    simp only [List.forall_mem_cons, exists_mem_cons_and, ne_eq, Expiry.combine_eq_never_iff, Expiry.combine_eq_pending_iff, not_or]
    constructor
    · rintro ⟨⟨⟨he, hf⟩, hes⟩, ⟨-, hhead⟩ | htail⟩
      · exact ⟨⟨he, hf, hes⟩, or_assoc.mp (.inl hhead)⟩
      · exact ⟨⟨he, hf, hes⟩, .inr (.inr htail)⟩
    · rintro ⟨⟨he, hf, hes⟩, hpend⟩
      exact ⟨⟨⟨he, hf⟩, hes⟩, (or_assoc.mpr hpend).imp_left fun hhead => ⟨⟨he, hf⟩, hhead⟩⟩

/-- A day as the combination is the greatest of the class expiries, all of them days (R92 (3)). -/
theorem combineAll_greatest_of_eq_day {e : Expiry × Bool} {es : List (Expiry × Bool)} {d : Nat}
    (h : (combineAll (e :: es)).1 = .day d) :
    (∃ x ∈ e :: es, x.1 = .day d) ∧ ∀ x ∈ e :: es, ∃ a, a ≤ d ∧ x.1 = .day a := by
  induction es generalizing e with
  | nil =>
    rw [combineAll_singleton] at h
    simp [h]
  | cons f es ih =>
    obtain ⟨hmem, hle⟩ := ih (combineAll_cons_cons e f es ▸ h)
    rw [exists_mem_cons_and] at hmem
    rw [List.forall_mem_cons] at hle
    obtain ⟨⟨a, had, hcomb⟩, hrest⟩ := hle
    obtain ⟨x, y, hx, hy, hmax⟩ := (Expiry.combine_eq_day_iff _ _ _).mp hcomb
    simp only [exists_mem_cons_and, List.forall_mem_cons]
    refine ⟨?_, ⟨x, by omega, hx⟩, ⟨y, by omega, hy⟩, hrest⟩
    rcases hmem with hhead | htail
    · have hxy : max x y = d := hmax.trans (Expiry.day.inj (hcomb.symm.trans hhead))
      rcases (by omega : max x y = x ∨ max x y = y) with hm | hm
      · exact .inl (by rw [hx, ← hxy, hm])
      · exact .inr (.inl (by rw [hy, ← hxy, hm]))
    · exact .inr (.inr htail)

/-! ### An item's expiry -/

theorem ClassState.defn_eq_some_iff (st : ClassState) (d : ClassDef) :
    st.defn = some d ↔ st = .defined d ∨ st = .locked d := by
  cases st <;> simp [ClassState.defn]

theorem itemExpiry_eq_combineAll {p : Policy} {cs : List Nat} {ds : List ClassDef} (hlen : ds.length = cs.length)
    (hdef : ∀ (n c : Nat) (d : ClassDef), cs[n]? = some c → ds[n]? = some d →
      (p.cls c).state = .defined d ∨ (p.cls c).state = .locked d) (S sent : Nat) (key : Option (Option Nat)) :
    itemExpiry p cs S sent key = combineAll (ds.map fun d => classExpiry d S sent key) := by
  have hdefns : cs.map (fun c => (p.cls c).state.defn) = ds.map some := by
    refine List.ext_getElem (by simp [hlen]) fun n hc hd => ?_
    rw [List.length_map] at hc hd
    rw [List.getElem_map, List.getElem_map, ClassState.defn_eq_some_iff]
    exact hdef n _ _ (List.getElem?_eq_getElem hc) (List.getElem?_eq_getElem hd)
  have hexps : cs.filterMap (fun c => (p.cls c).state.defn.map fun d => classExpiry d S sent key) =
      ds.map fun d => classExpiry d S sent key := by
    calc
      _ = (cs.map fun c => (p.cls c).state.defn).filterMap (Option.map fun d => classExpiry d S sent key) :=
        List.filterMap_map.symm
      _ = (ds.map some).filterMap (Option.map fun d => classExpiry d S sent key) := by rw [hdefns]
      _ = ds.map fun d => classExpiry d S sent key := by
        rw [List.filterMap_map]
        exact congrFun List.filterMap_eq_map _
  rw [itemExpiry, hexps]

@[simp] theorem Index.keyState_none (x : Index) : x.keyState none = none := rfl

theorem Index.keyState_of_absent {x : Index} {k : Key} (h : x.event k = none) : x.keyState (some k) = some none := by
  simp [Index.keyState, h]

theorem Index.keyState_of_entry {x : Index} {k : Key} {e : EventEntry} (h : x.event k = some e) :
    x.keyState (some k) = some e.posted := by
  simp [Index.keyState, h]

/-- Settles O18: the clamp, the class expiry, the merge, the item's expiry and the combination, each from its own lemmas above. -/
theorem expiries : Obligations.Expiries := by
  refine ⟨fun _ _ _ _ hraw => sentClamp_eq_of_raw hraw, fun c S sent key => ⟨?permanent, ?awaiting, ?anchored⟩,
    ⟨Expiry.pending_merge, Expiry.day_merge_day, fun a => ⟨Expiry.day_merge_pending a, Expiry.day_merge_never a⟩,
      Expiry.never_merge, Expiry.notEarlier_merge⟩,
    fun _ _ _ S sent key hlen hdef => itemExpiry_eq_combineAll hlen hdef S sent key,
    fun x => ⟨x.keyState_none, fun _ => ⟨Index.keyState_of_absent, fun _ => Index.keyState_of_entry⟩⟩,
    fun es hne => ?combination⟩
  case permanent => exact fun hp => classExpiry_of_anchor_never (anchorOf_of_permanent hp S sent key)
  case awaiting =>
    rintro hp he rfl
    exact classExpiry_of_anchor_pending (anchorOf_of_awaiting hp he S sent)
  case anchored =>
    intro A hp hA
    rw [classExpiry_of_anchor_day (anchorOf_eq_day hp hA)]
    exact ⟨rfl, fun _ _ _ _ _ _ _ hdate hy hm hd hC => periodExpiry_eq_of_date hdate hy hm hd hC⟩
  case combination =>
    obtain ⟨e, es, rfl⟩ := List.exists_cons_of_ne_nil hne
    refine ⟨(combineAll_eq_never_iff e es).mpr, fun hnn hp => (combineAll_eq_pending_iff e es).mpr ⟨hnn, hp⟩, fun hdays => ?_,
      combineAll_snd _⟩
    cases hexp : (combineAll (e :: es)).1 with
    | day d => exact ⟨d, rfl, combineAll_greatest_of_eq_day hexp⟩
    | pending =>
      obtain ⟨-, x, hx, hpend⟩ := (combineAll_eq_pending_iff e es).mp hexp
      exact absurd hpend (hdays x hx).2
    | never =>
      obtain ⟨x, hx, hnever⟩ := (combineAll_eq_never_iff e es).mp hexp
      exact absurd hnever (hdays x hx).1

end Sys2Proof.Machine
end

section
/-! ITEM_OPEN: the context looked for, the event key it enters, the checks of TABLE 2-2 in order, and the statement about it. -/

namespace Sys2Proof.Machine

/-! ### Contexts counted and looked for -/

theorem Ingest.openCount_eq_countP (g : Ingest) :
    g.openCount = (List.range 16).countP (fun n => (g.ctx n).body.isSome) :=
  List.countP_eq_length_filter.symm

theorem Ingest.lowestFree_eq_none_iff (g : Ingest) : g.lowestFree = none ↔ ∀ n, n ≤ 15 → (g.ctx n).body ≠ none := by
  simp [Ingest.lowestFree, Config.contexts, Nat.lt_succ_iff]

theorem Ingest.lowestFree_eq_some_iff (g : Ingest) (c : Nat) :
    g.lowestFree = some c ↔ (g.ctx c).body = none ∧ c ≤ 15 ∧ ∀ n, n < c → (g.ctx n).body ≠ none := by
  simp [Ingest.lowestFree, Config.contexts, Nat.lt_succ_iff, Option.isSome_iff_ne_none]

/-! ### The event key of an ITEM_OPEN -/

theorem Index.lacks_iff (x : Index) (k : Option Key) : x.lacks k = true ↔ ∃ y, k = some y ∧ x.event y = none := by
  cases k <;> simp [Index.lacks]

/-- A write to the event key table, read back by key: keys are table positions, so no two of them meet. -/
theorem Index.setEvent_event (x : Index) (k j : Key) (e : EventEntry) :
    (x.setEvent k e).event j = if k = j then some e else x.event j := by
  simp only [Index.setEvent, Index.event, Table.find_put, ← BitVec.toNat_inj, eq_comm]

theorem Index.enter_event (x : Index) (k : Option Key) (j : Key) :
    (x.enter k).event j = if k = some j ∧ x.event j = none then some { posted := none, items := [] } else x.event j := by
  cases k with
  | none => simp [Index.enter]
  | some k =>
    cases hk : x.event k with
    | none =>
      simp only [Index.enter, hk, Option.isNone_none, if_true, Index.setEvent_event, Option.some.injEq]
      by_cases hkj : k = j
      · subst hkj; simp [hk]
      · simp [hkj]
    | some e =>
      have hpresent : ¬ (k = j ∧ x.event j = none) := by
        rintro ⟨rfl, habsent⟩
        simp [hk] at habsent
      simp [Index.enter, hk, hpresent]

/-- Entering a key changes the event key table alone. -/
theorem Index.enter_frame (x : Index) (k : Option Key) :
    (∀ n, (x.enter k).item n = x.item n) ∧ (x.enter k).next = x.next ∧ (x.enter k).calendar = x.calendar ∧
      (x.enter k).sweeps = x.sweeps ∧ (x.enter k).run = x.run := by
  cases k with
  | none => exact ⟨fun _ => rfl, rfl, rfl, rfl, rfl⟩
  | some k =>
    simp only [Index.enter]
    split <;> exact ⟨fun _ => rfl, rfl, rfl, rfl, rfl⟩

/-! ### The checks of TABLE 2-2 -/

theorem badItemOpen_iff (q : ItemOpen) :
    badItemOpen q = true ↔
      q.parties.length = 0 ∨ 128 < q.parties.length ∨ q.segCount = 0 ∨ 256 < q.segCount ∨ 15 < q.domain :=
  decide_eq_true_iff

/-- Checks (3) to (6) of TABLE 2-2 in order, read as a status: OK where a context is taken. -/
theorem State.openCheck_status (s : State) (q : ItemOpen) :
    (s.openCheck q).elim id (fun _ => .ok) =
      if (s.policy.domain q.domain).active = false then .domainUnused
      else if 16777215 ≤ (s.index.next - 1) + s.ingest.openCount then .indexFull
      else if s.index.lacks q.event = true ∧ 65536 ≤ s.index.events.length then .eventTableFull
      else if s.ingest.lowestFree = none then .noContext
      else .ok := by
  by_cases hunused : (s.policy.domain q.domain).active = false
  · simp [State.openCheck, hunused]
  by_cases hindex : 16777215 ≤ (s.index.next - 1) + s.ingest.openCount
  · simp [State.openCheck, Config.itemMax, hunused, hindex]
  by_cases htable : s.index.lacks q.event = true ∧ 65536 ≤ s.index.events.length
  · simp [State.openCheck, Config.itemMax, Config.eventKeys, hunused, hindex, htable]
  cases hfree : s.ingest.lowestFree with
  | none => simp [State.openCheck, Config.itemMax, Config.eventKeys, hunused, hindex, htable, hfree]
  | some c => simp [State.openCheck, Config.itemMax, Config.eventKeys, hunused, hindex, htable, hfree]

theorem State.openCheck_eq_inr {s : State} {q : ItemOpen} {c : Nat} (hactive : (s.policy.domain q.domain).active = true)
    (hroom : (s.index.next - 1) + s.ingest.openCount < 16777215)
    (hkeys : s.index.lacks q.event = true → s.index.events.length < 65536) (hfree : s.ingest.lowestFree = some c) :
    s.openCheck q = .inr c := by
  have hindex : ¬ Config.itemMax ≤ (s.index.next - 1) + s.ingest.openCount := Nat.not_le.mpr hroom
  have htable : ¬ (s.index.lacks q.event = true ∧ Config.eventKeys ≤ s.index.events.length) :=
    fun ⟨hlacks, hfull⟩ => Nat.not_le.mpr (hkeys hlacks) hfull
  simp [State.openCheck, hactive, hindex, htable, hfree]

/-! ### ITEM_OPEN -/

theorem keeps_ingest_index (s : State) (v : Ingest) (x : Index) :
    KeepsAllBut [.ingest, .index] s { s with ingest := v, index := x } :=
  ((keeps_ingest s v).mono rfl).trans ((keeps_index { s with ingest := v } x).mono rfl)

theorem exec_itemOpen_of_taking {s : State} (h : s.taking = true) (tag : Byte) (r : Req ItemOpen) :
    exec (.itemOpen tag r) s = .next (s.itemOpen tag r) :=
  if_pos h

theorem State.itemOpen_of_clock_unset {s : State} (h : s.clock.state = .unset) (tag : Byte) (r : Req ItemOpen) :
    s.itemOpen tag r = s.reply tag Code.itemOpen .clockUnset :=
  if_pos h

theorem State.itemOpen_of_bad {s : State} {q : ItemOpen} (hclock : s.clock.state ≠ .unset) (hbad : badItemOpen q = true)
    (tag : Byte) : s.itemOpen tag (.fields q) = s.reply tag Code.itemOpen .badField := by
  simp [State.itemOpen, hclock, hbad]

theorem State.itemOpen_of_openCheck_inl {s : State} {q : ItemOpen} {st : Status} (hclock : s.clock.state ≠ .unset)
    (hgood : ¬ badItemOpen q = true) (hcheck : s.openCheck q = .inl st) (tag : Byte) :
    s.itemOpen tag (.fields q) = s.reply tag Code.itemOpen st := by
  simp [State.itemOpen, hclock, hgood, hcheck]

theorem State.itemOpen_of_openCheck_inr {s : State} {q : ItemOpen} {c : Nat} (hclock : s.clock.state ≠ .unset)
    (hgood : ¬ badItemOpen q = true) (hcheck : s.openCheck q = .inr c) (tag : Byte) :
    s.itemOpen tag (.fields q) =
      ({ s with ingest := s.ingest.setCtx c (s.opened c q), index := s.index.enter q.event } : State).reply tag Code.itemOpen .ok
        (Fld.ctxRef c (s.opened c q).gen) := by
  simp [State.itemOpen, hclock, hgood, hcheck]

/-- The first refusal of TABLE 2-2 that applies is the answer, with no other effect (R26). -/
theorem State.itemOpen_refused {s : State} {q : ItemOpen} {st : Status}
    (hst : st = if s.clock.state = .unset then .clockUnset
      else if badItemOpen q = true then .badField
      else (s.openCheck q).elim id (fun _ => .ok)) (hne : st ≠ .ok) (tag : Byte) :
    s.itemOpen tag (.fields q) = s.reply tag Code.itemOpen st := by
  split at hst
  next hclock => rw [hst, State.itemOpen_of_clock_unset hclock]
  next hclock =>
    split at hst
    next hbad => rw [hst, State.itemOpen_of_bad hclock hbad]
    next hgood =>
      cases hcheck : s.openCheck q with
      | inl refusal =>
        rw [hcheck] at hst
        rw [hst]
        exact State.itemOpen_of_openCheck_inl hclock hgood hcheck tag
      | inr c => exact absurd (by rw [hst, hcheck]; rfl) hne

/-- Settles O19: the counts and lookups it names, the refusals of TABLE 2-2 in order, and the context an accepted request takes. -/
theorem itemOpenOutcome : Obligations.ItemOpenOutcome := by
  refine ⟨fun g x k => ⟨g.openCount_eq_countP, g.lowestFree_eq_none_iff, x.lacks_iff k⟩, ?refused, ?accepted⟩
  case refused =>
    intro tag q s st htaking hst hne
    simp only [← badItemOpen_iff, ← State.openCheck_status] at hst
    rw [exec_itemOpen_of_taking htaking, State.itemOpen_refused hst hne]
    rfl
  case accepted =>
    intro tag q s c htaking hclock hparties hpartiesMax hsegs hsegsMax hdomain hactive hroom hkeys hc hfree hlowest
    have hgood : ¬ badItemOpen q = true := by
      rw [badItemOpen_iff]
      omega
    have hcheck : s.openCheck q = .inr c := by
      refine State.openCheck_eq_inr hactive hroom (fun hlacks => ?_) ((s.ingest.lowestFree_eq_some_iff c).mpr ⟨hfree, hc, hlowest⟩)
      obtain ⟨k, hk, habsent⟩ := (s.index.lacks_iff q.event).mp hlacks
      exact hkeys k hk habsent
    obtain ⟨hitem, hnext, hcalendar, hsweeps, hrun⟩ := s.index.enter_frame q.event
    rw [exec_itemOpen_of_taking htaking, State.itemOpen_of_openCheck_inr hclock hgood hcheck]
    refine ⟨_, rfl, ((keeps_ingest_index s _ _).mono rfl).trans ((State.reply_frame _ tag _ _ _).mono rfl),
      s.ingest.setCtx_ctx c (s.opened c q), fun n hn => s.ingest.setCtx_ctx_ne _ hn, rfl, s.index.enter_event q.event,
      hitem, hnext, hcalendar, hsweeps, hrun, rfl⟩

end Sys2Proof.Machine
end

section
/-! The completion of a sweep: what a table in rising order reads once filtered, what starting the next sweep and the end of a HOLD
sweep leave, and the statement about SWEEP_COMPLETION. -/

namespace Sys2Proof

/-! ### Filtering a table in rising order -/

theorem Table.find_eq_some_iff_mem {α : Type} {t : Table α} (h : Table.sorted t = true) (k : Nat) (v : α) :
    Table.find t k = some v ↔ (k, v) ∈ t :=
  ⟨Table.mem_of_find, Table.find_of_mem h⟩

theorem Table.find_filter {α : Type} {t : Table α} (h : Table.sorted t = true) (p : Nat × α → Bool) (k : Nat) :
    Table.find (t.filter p : Table α) k = (Table.find t k).filter (fun v => p (k, v)) := by
  ext v
  rw [Table.find_eq_some_iff_mem (Table.sorted_filter p h), List.mem_filter, ← Table.find_eq_some_iff_mem h,
    Option.filter_eq_some_iff]

namespace Machine

/-! ### The next sweep starts (R112) -/

theorem SweepReq.past_iff (r : SweepReq) (u : SweepRun) :
    r.past u = true ↔ match r with | .event _ => u.limit ≤ u.cursor | _ => u.limit < u.cursor := by
  cases r <;> simp [SweepReq.past]

/-- Starting the next sweep writes the run alone. -/
theorem Index.startSweep_frame (x : Index) :
    x.startSweep.items = x.items ∧ x.startSweep.calendar = x.calendar ∧ x.startSweep.events = x.events ∧
      x.startSweep.next = x.next ∧ x.startSweep.sweeps = x.sweeps := by
  unfold Index.startSweep
  split <;> exact ⟨rfl, rfl, rfl, rfl, rfl⟩

theorem Index.startSweep_run {x : Index} (h : x.run = none) : x.startSweep.run = x.sweeps.head?.map x.startRun := by
  unfold Index.startSweep
  split
  next hsweeps => simp [hsweeps]
  next hother =>
    cases hsweeps : x.sweeps with
    | nil => exact h
    | cons r rs => exact (hother r rs h hsweeps).elim

/-- What a sweep starts with is read from the item numbers and the key lists, not from the queue (R112). -/
theorem Index.startRun_with_queue (x : Index) (rs : List SweepReq) (run : Option SweepRun) (r : SweepReq) :
    ({ x with sweeps := rs, run } : Index).startRun r = x.startRun r := by
  cases r <;> rfl

/-! ### The Hold Unit at the end of a sweep (R121) -/

theorem Hold.free_matter_self (h : Hold) (m : Nat) : (h.free m).matter m = .free := h.setMatter_matter m .free

theorem Hold.free_matter_ne (h : Hold) {m k : Nat} (hk : k ≠ m) : (h.free m).matter k = h.matter k :=
  h.setMatter_matter_ne .free hk

/-- Every custodian entry loses the matter that becomes FREE, and an entry left with none is removed (R121 (3), R122). -/
theorem Hold.free_custodian {h : Hold} (hsorted : Table.sorted h.custodians = true) (m p : Nat) :
    Table.find (h.free m).custodians p = (Table.find h.custodians p).bind (fun e =>
      if e.mask &&& ~~~(bit64 m) = 0 then none else some { e with mask := e.mask &&& ~~~(bit64 m) }) := by
  rw [Hold.free, Table.find_filter (Table.sorted_mapVal _ hsorted), Table.find_mapVal]
  cases Table.find h.custodians p with
  | none => rfl
  | some e => simp [Option.filter_some]

theorem Hold.sweepDone_of_lifting {h : Hold} {m : Nat} {f : MatterFields} {rest : List SweepReq} (hm : h.matter m = .lifting f)
    (hrest : .hold m ∉ rest) : h.sweepDone (.hold m) rest = h.free m := by
  simp [Hold.sweepDone, hm, hrest]

/-- The tables stand unless the last HOLD sweep of a LIFTING matter has ended (R121). -/
theorem Hold.sweepDone_eq_self {h : Hold} {r : SweepReq} {rest : List SweepReq}
    (hrest : ∀ m f, r = .hold m → h.matter m = .lifting f → r ∈ rest) : h.sweepDone r rest = h := by
  cases r with
  | cls c => rfl
  | event k => rfl
  | hold m =>
    cases hm : h.matter m with
    | free => simp [Hold.sweepDone, hm]
    | active f => simp [Hold.sweepDone, hm]
    | lifting f => simp [Hold.sweepDone, hm, hrest m f rfl hm]

/-! ### The event that completes a sweep (R114) -/

@[simp] theorem State.completeSweep_index (s : State) (r : SweepReq) (u : SweepRun) :
    (s.completeSweep r u).index = Index.startSweep { s.index with sweeps := s.index.sweeps.tail, run := none } := by
  simp [State.completeSweep]

@[simp] theorem State.completeSweep_hold (s : State) (r : SweepReq) (u : SweepRun) :
    (s.completeSweep r u).hold = s.hold.sweepDone r s.index.sweeps.tail := by
  simp [State.completeSweep]

@[simp] theorem State.completeSweep_clock (s : State) (r : SweepReq) (u : SweepRun) :
    (s.completeSweep r u).clock = { s.clock with hwm := s.clock.counter } := by
  simp [State.completeSweep]

@[simp] theorem State.completeSweep_timer (s : State) (r : SweepReq) (u : SweepRun) :
    (s.completeSweep r u).timer = s.timer := by
  simp [State.completeSweep]

@[simp] theorem State.completeSweep_audit (s : State) (r : SweepReq) (u : SweepRun) :
    (s.completeSweep r u).audit =
      s.audit.append s.clock.counter s.timer .sweepDone (Fld.sweepReq r ++ [Fld.u32 u.limit, Fld.u32 u.changed]) := by
  simp [State.completeSweep]

theorem State.completeSweep_tells (s : State) (r : SweepReq) (u : SweepRun) : Tells s (s.completeSweep r u) :=
  (s.append_tells _ _).trans ((State.raise_tells _ .sweepDone).trans (Tells.of_link rfl))

theorem State.completeSweep_flag (s : State) (r : SweepReq) (u : SweepRun) :
    (s.completeSweep r u).link.flags.getLsbD 6 = true := by
  simp [State.completeSweep, Link.raise_flags, Notice.bit]

/-- An event whose state, before its end, is one record on from where it began has appended that record (R179). -/
theorem State.closeEvent_appended {s t : State} {kind : AuditKind} {subject : List Field}
    (haudit : t.audit = s.audit.append s.clock.counter s.timer kind subject)
    (hclock : t.clock = { s.clock with hwm := s.clock.counter }) (htimer : t.timer = s.timer) :
    Appended s (State.closeEvent s t) kind subject := by
  obtain ⟨hbuffer, hcounter, hchain, -, -⟩ := State.closeEvent_trail s t
  rw [haudit] at hbuffer hcounter hchain
  unfold Appended
  rw [State.closeEvent_clock, State.closeEvent_timer, hclock, htimer]
  exact ⟨hbuffer, hcounter, hchain, rfl⟩

theorem Index.running_of_cons {x : Index} {r : SweepReq} {rs : List SweepReq} {u : SweepRun} (hsweeps : x.sweeps = r :: rs)
    (hrun : x.run = some u) : x.running = some (r, u) := by
  simp [Index.running, hsweeps, hrun]

theorem exec_sweepCompletion_of_running {s : State} {r : SweepReq} {u : SweepRun} (htaking : s.taking = true)
    (hrunning : s.index.running = some (r, u)) :
    exec .sweepCompletion s =
      .next (if r.past u = true ∧ s.slotFree = true then State.closeEvent s (s.completeSweep r u) else s) := by
  have hexec : exec .sweepCompletion s = s.event s.sweepCompletion := rfl
  rw [hexec, State.event, if_pos htaking, State.sweepCompletion, hrunning]

/-- Settles O35: the completion waits for the cursor and a free slot, and then leaves the record, the queue with the next sweep
started, and the Hold Unit's tables, each by its own lemma above. -/
theorem sweepCompletion : Obligations.SweepCompletion := by
  intro s r rs u htaking hsweeps hrun hsorted
  have hexec := exec_sweepCompletion_of_running htaking (Index.running_of_cons hsweeps hrun)
  refine ⟨r.past_iff u, fun hwait => ?waits, fun hpast hslot => ⟨_, hexec.trans (by rw [if_pos ⟨hpast, hslot⟩]), ?completes⟩⟩
  case waits =>
    have hnot : ¬ (r.past u = true ∧ s.slotFree = true) := fun ⟨hpast, hslot⟩ =>
      hwait.elim (Bool.eq_false_iff.mp · hpast) (Bool.eq_false_iff.mp · hslot)
    rw [hexec, if_neg hnot]
  case completes =>
    have hhold : (State.closeEvent s (s.completeSweep r u)).hold = s.hold.sweepDone r rs := by simp [hsweeps]
    have hindex : (State.closeEvent s (s.completeSweep r u)).index =
        Index.startSweep { s.index with sweeps := rs, run := none } := by simp [hsweeps]
    have hflags := (State.closeEvent_tells s (s.completeSweep r u)).2.1
    obtain ⟨hitems, hcalendar, hevents, hnext, hqueue⟩ :=
      Index.startSweep_frame { s.index with sweeps := rs, run := none }
    have hstarted := Index.startSweep_run (x := { s.index with sweeps := rs, run := none }) rfl
    rw [hindex, hhold]
    refine ⟨State.closeEvent_after (s.completeSweep_frame r u) rfl,
      (s.completeSweep_tells r u).trans (State.closeEvent_tells s _),
      State.closeEvent_appended (s.completeSweep_audit r u) (s.completeSweep_clock r u) (s.completeSweep_timer r u),
      hflags 6 (s.completeSweep_flag r u), by simp, hitems, hcalendar, hevents, hnext, hqueue, ?empty, ?next, ?lifted,
      Hold.sweepDone_eq_self⟩
    case empty =>
      rintro rfl
      exact hstarted
    case next =>
      rintro r' rs' rfl
      exact hstarted.trans (congrArg some (s.index.startRun_with_queue _ none r'))
    case lifted =>
      rintro m f rfl hlifting hlast
      rw [Hold.sweepDone_of_lifting hlifting hlast]
      exact ⟨s.hold.free_matter_self m, fun _ hk => s.hold.free_matter_ne hk, Hold.free_custodian hsorted m⟩

end Machine
end Sys2Proof
end

section
/-! The coverage of an item by a matter: R126's four conditions read off the coverage check, the bits of the full evaluation, and the
statement about both. -/

namespace Sys2Proof.Machine

theorem bit64_getLsbD (m k : Nat) : (bit64 m).getLsbD k = decide (m < 64 ∧ m = k) := by
  rw [Bool.decide_and]
  exact BitVec.getLsbD_twoPow m k

theorem inRange_iff (r : Option (Nat × Nat)) (day : Nat) :
    inRange r day = true ↔ ∀ a b, r = some (a, b) → a ≤ day ∧ day ≤ b := by
  cases r with
  | none => simp [inRange]
  | some bounds => simp [inRange, Prod.ext_iff]

theorem Hold.covers_of_active {h : Hold} {m : Nat} {f : MatterFields} (hm : h.matter m = .active f) (domain sentDay : Nat)
    (parties : List Key) :
    h.covers m domain sentDay parties = true ↔
      f.domains.getLsbD domain = true ∧ (∀ a b, f.range = some (a, b) → a ≤ sentDay ∧ sentDay ≤ b) ∧
        (f.allParties = true ∨ ∃ k ∈ parties, (h.maskOf k).getLsbD m = true) := by
  simp only [Hold.covers, hm, Bool.and_eq_true, Bool.or_eq_true, List.any_eq_true, inRange_iff, and_assoc]

theorem Hold.active_of_covers {h : Hold} {m domain sentDay : Nat} {parties : List Key}
    (hcov : h.covers m domain sentDay parties = true) : ∃ f, h.matter m = .active f := by
  cases hm : h.matter m with
  | active f => exact ⟨f, rfl⟩
  | free => simp [Hold.covers, hm] at hcov
  | lifting f => simp [Hold.covers, hm] at hcov

/-- The mask of the first `n` matters holds exactly those of them that cover the item (R127). -/
theorem Hold.coverBelow_getLsbD (h : Hold) (domain sentDay : Nat) (parties : List Key) (m : Nat) {n : Nat} (hn : n ≤ 64) :
    (h.coverBelow domain sentDay parties n).getLsbD m = (decide (m < n) && h.covers m domain sentDay parties) := by
  induction n with
  | zero => simp [Hold.coverBelow]
  | succ n ih =>
    have ihn := ih (Nat.le_of_succ_le hn)
    by_cases hm : m = n
    · subst hm
      have hbit : (bit64 m).getLsbD m = true := by
        rw [bit64_getLsbD, decide_eq_true_eq]
        exact ⟨hn, rfl⟩
      cases hcov : h.covers m domain sentDay parties with
      | false => simp [Hold.coverBelow, hcov, ihn]
      | true => simp [Hold.coverBelow, hcov, hbit]
    · have hlt : m < n + 1 ↔ m < n := by omega
      have hbit : (bit64 n).getLsbD m = false := by simp [bit64_getLsbD, Ne.symm hm]
      rw [decide_eq_decide.mpr hlt, ← ihn, Hold.coverBelow]
      split
      · rw [BitVec.getLsbD_or, hbit, Bool.or_false]
      · rfl

/-- Settles O36: the four conditions of R126 by the state of the matter, and the full evaluation bit by bit. -/
theorem coverage : Obligations.Coverage := by
  refine fun h m domain sentDay parties => ⟨⟨fun hcov => ?covered, ?covers⟩,
    h.coverBelow_getLsbD domain sentDay parties m (Nat.le_refl 64)⟩
  case covered =>
    obtain ⟨f, hm⟩ := Hold.active_of_covers hcov
    exact ⟨f, hm, (Hold.covers_of_active hm domain sentDay parties).mp hcov⟩
  case covers =>
    rintro ⟨f, hm, hconditions⟩
    exact (Hold.covers_of_active hm domain sentDay parties).mpr hconditions

end Sys2Proof.Machine
end

section
/-! CUSTODIAN_SET: the custodian table read by key, the checks of R123 in order, the one entry R124 writes, and the statement about
the request. -/

namespace Sys2Proof.Machine

/-! ### The custodian table, read by key (R122) -/

theorem Hold.find_eq_none_iff {h : Hold} (hsorted : Table.sorted h.custodians = true) (k : Key) :
    h.find k = none ↔ ∀ p e, Table.find h.custodians p = some e → e.key ≠ k := by
  simp only [Hold.find, Option.map_eq_none_iff, List.find?_eq_none, beq_iff_eq, Prod.forall, Table.find_eq_some_iff_mem hsorted,
    ne_eq]

theorem Hold.entry_of_find {h : Hold} (hsorted : Table.sorted h.custodians = true) {k : Key} {p : Nat} {m : BitVec 64}
    (hfind : h.find k = some (p, m)) : Table.find h.custodians p = some { key := k, mask := m } := by
  obtain ⟨⟨q, e⟩, hlisted, heq⟩ := Option.map_eq_some_iff.mp hfind
  obtain ⟨rfl, rfl⟩ := Prod.mk.inj heq
  have hkey := List.find?_some hlisted
  rw [beq_iff_eq] at hkey
  exact hkey ▸ Table.find_of_mem hsorted (List.mem_of_find?_eq_some hlisted)

theorem Hold.place_of_find {h : Hold} {k : Key} {p : Nat} {m : BitVec 64} (hfind : h.find k = some (p, m)) :
    h.place k = some p := by
  simp [Hold.place, hfind]

theorem Hold.place_of_find_none {h : Hold} {k : Key} (hfind : h.find k = none) :
    h.place k = Table.firstFree h.custodians 0 4096 := by
  simp [Hold.place, hfind, Config.custodians]

/-- One position is written, and an empty mask empties it (R124). -/
theorem Hold.setCustodian_find (h : Hold) (p : Nat) (q : CustodianSet) (k : Nat) :
    Table.find (h.setCustodian p q).custodians k =
      if k = p then (if q.mask = 0 then none else some { key := q.key, mask := q.mask }) else Table.find h.custodians k := by
  unfold Hold.setCustodian
  by_cases hempty : q.mask = 0
  · simp only [hempty, if_true, Table.find_del]
  · simp only [hempty, if_false, Table.find_put]

/-! ### The checks of R123 -/

theorem Hold.any_isLifting_iff (h : Hold) (ms : List Nat) :
    ms.any h.isLifting = true ↔ ∃ m ∈ ms, ∃ f, h.matter m = .lifting f := by
  have hlifting : ∀ m, h.isLifting m = true ↔ ∃ f, h.matter m = .lifting f := fun m => by
    cases hm : h.matter m <;> simp [Hold.isLifting, hm]
  simp only [List.any_eq_true, hlifting]

theorem State.custodianCheck_of_unchanged {s : State} {q : CustodianSet} (hmask : q.mask = s.hold.maskOf q.key) :
    s.custodianCheck q = .inl .unchanged :=
  if_pos hmask

theorem State.custodianCheck_of_lifting {s : State} {q : CustodianSet} (hmask : q.mask ≠ s.hold.maskOf q.key)
    (hlifting : ∃ m ∈ changedMatters (s.hold.maskOf q.key) q.mask, ∃ f, s.hold.matter m = .lifting f) :
    s.custodianCheck q = .inl .busy := by
  rw [State.custodianCheck, if_neg hmask, if_pos ((s.hold.any_isLifting_iff _).mpr hlifting)]

/-- The checks of R123 that follow UNCHANGED and BUSY, in order, by the position the key's entry has or would take. -/
theorem State.custodianCheck_of_no_lifting {s : State} {q : CustodianSet} (hmask : q.mask ≠ s.hold.maskOf q.key)
    (hnone : ∀ m ∈ changedMatters (s.hold.maskOf q.key) q.mask, ∀ f, s.hold.matter m ≠ .lifting f) :
    s.custodianCheck q = (s.hold.place q.key).elim (.inl .tableFull) fun p =>
      if s.index.admits ((s.hold.toSweep q).map .hold) = false then .inl .sweepFull
      else if s.slotFree = false then .inl .auditFull
      else .inr p := by
  have hfalse : ¬ (changedMatters (s.hold.maskOf q.key) q.mask).any s.hold.isLifting = true := fun hany => by
    obtain ⟨m, hm, f, hlifting⟩ := (s.hold.any_isLifting_iff _).mp hany
    exact hnone m hm f hlifting
  rw [State.custodianCheck, if_neg hmask, if_neg hfalse]
  cases s.hold.place q.key <;> rfl

/-! ### An accepted request -/

theorem State.accept_hold (s t : State) (tag : Byte) (code : Nat) (st : Status) (p : List Field) (kind : AuditKind)
    (subject : List Field) : (s.accept tag code st p kind subject t).hold = t.hold := by simp [State.accept]

theorem State.accept_index (s t : State) (tag : Byte) (code : Nat) (st : Status) (p : List Field) (kind : AuditKind)
    (subject : List Field) : (s.accept tag code st p kind subject t).index = t.index := by simp [State.accept]

theorem State.accept_counter (s t : State) (tag : Byte) (code : Nat) (st : Status) (p : List Field) (kind : AuditKind)
    (subject : List Field) : (s.accept tag code st p kind subject t).clock.counter = t.clock.counter := by simp [State.accept]

theorem keeps_hold_index (s : State) (h : Hold) (x : Index) :
    KeepsAllBut [.hold, .index] s { s with hold := h, index := x } := by
  intro b hb
  cases b
  case hold => exact (hb (by decide)).elim
  case index => exact (hb (by decide)).elim
  all_goals rfl

theorem Index.answerOf_code (x : Index) (r : SweepReq) : (x.answerOf r).code = if r ∈ x.waiting then 1 else 0 := by
  unfold Index.answerOf
  split <;> rfl

theorem exec_custodianSet_of_refused {s : State} (htaking : s.taking = true) {q : CustodianSet} {st : Status}
    (hcheck : s.custodianCheck q = .inl st) (tag : Byte) :
    exec (.custodianSet tag (.fields q)) s = .next (s.emit (replyFrame tag 0x1C st [])) := by
  have hexec : exec (.custodianSet tag (.fields q)) s = .next (s.custodianSet tag q) := if_pos htaking
  rw [hexec, State.custodianSet, hcheck]
  rfl

/-- Everything a CUSTODIAN_SET that passes the checks does (R124): the entry written at its position, the sweeps of the ACTIVE changed
matters, the reply and the record. -/
theorem exec_custodianSet_of_accepted {s : State} (htaking : s.taking = true) {q : CustodianSet} {p : Nat}
    (hcheck : s.custodianCheck q = .inr p) (tag : Byte) :
    ∃ t, exec (.custodianSet tag (.fields q)) s = .next t ∧ KeepsAllBut (.hold :: .index :: recordBlocks) s t ∧
      t.hold = s.hold.setCustodian p q ∧ t.index = s.index.enqueue ((s.hold.toSweep q).map .hold) ∧
      t.clock.counter = s.clock.counter ∧
      Accepted s t tag 0x1C .ok [Fld.u32 p, Fld.u64 q.mask.toNat] .custodianChanged
        ([Fld.u64 q.key.toNat, Fld.u32 p, Fld.u64 (s.hold.maskOf q.key).toNat, Fld.u64 q.mask.toNat] ++
          Fld.rows ((s.hold.toSweep q).map fun m => [Fld.u8 m, Fld.u8 (if .hold m ∈ s.index.waiting then 1 else 0)])) := by
  have hexec : exec (.custodianSet tag (.fields q)) s = .next (s.custodianSet tag q) := if_pos htaking
  simp only [State.custodianSet, hcheck, Index.answerOf_code] at hexec
  refine ⟨_, hexec, State.accept_frame s _ _ _ _ _ _ _ ((keeps_hold_index s _ _).mono rfl) rfl,
    State.accept_hold .., State.accept_index .., State.accept_counter .., ?_⟩
  refine (State.accept_accepted tag _ _ _ _ _ ?_ ?_ ?_ htaking).1
  · exact Tells.of_link rfl
  · rfl
  · rfl

/-- Settles O38: the table read by key, then the outcomes of R123 in order, then the entry, the record and the sweeps of R124. -/
theorem custodianSetOutcome : Obligations.CustodianSetOutcome := by
  refine ⟨fun h k hsorted => ⟨Hold.find_eq_none_iff hsorted k, fun _ _ => Hold.entry_of_find hsorted, rfl⟩, ?_⟩
  rintro tag q s old changed swept htaking rfl rfl rfl
  refine ⟨fun hmask => exec_custodianSet_of_refused htaking (State.custodianCheck_of_unchanged hmask) tag,
    fun hmask hlifting => exec_custodianSet_of_refused htaking (State.custodianCheck_of_lifting hmask hlifting) tag,
    fun hmask hnone => ⟨fun hfind hfull => ?noPlace, fun p hp => ?placed⟩⟩
  all_goals have hcheck := State.custodianCheck_of_no_lifting hmask hnone
  case noPlace =>
    rw [Hold.place_of_find_none hfind, hfull] at hcheck
    exact exec_custodianSet_of_refused htaking hcheck tag
  case placed =>
    have hplace : s.hold.place q.key = some p :=
      hp.elim Hold.place_of_find fun ⟨hfind, hfree⟩ => (Hold.place_of_find_none hfind).trans hfree
    rw [hplace, Option.elim_some] at hcheck
    refine ⟨fun hqueue => ?sweepFull, fun hqueue hslot => ?auditFull, fun hqueue hslot => ?accepted⟩
    case sweepFull => exact exec_custodianSet_of_refused htaking (hcheck.trans (if_pos hqueue)) tag
    all_goals replace hcheck := hcheck.trans (if_neg (ne_false_of_eq_true hqueue))
    case auditFull => exact exec_custodianSet_of_refused htaking (hcheck.trans (if_pos hslot)) tag
    case accepted =>
      replace hcheck := hcheck.trans (if_neg (ne_false_of_eq_true hslot))
      obtain ⟨t, hexec, hkeeps, hhold, hindex, hcounter, haccepted⟩ := exec_custodianSet_of_accepted htaking hcheck tag
      refine ⟨t, hexec, hkeeps, ?_, fun k hk => ?_, by rw [hhold]; rfl, hindex, hcounter, haccepted⟩
      · rw [hhold, Hold.setCustodian_find, if_pos rfl]
      · rw [hhold, Hold.setCustodian_find, if_neg hk]

end Sys2Proof.Machine
end

section
/-! The step of a HOLD sweep: an item's entry into the calendar, the mask and count with one matter's bit written, the state TABLE 6-2
gives, what the step can do to an item, and the statement about HOLD_SWEEP_STEP. -/

namespace Sys2Proof.Machine

/-! ### An item enters the calendar (R102 (1)) -/

theorem Index.toCalendar_frame (x : Index) (e : Expiry) (i : Nat) :
    (x.toCalendar e i).items = x.items ∧ (x.toCalendar e i).next = x.next ∧ (x.toCalendar e i).events = x.events ∧
      (x.toCalendar e i).sweeps = x.sweeps := by
  cases e <;> exact ⟨rfl, rfl, rfl, rfl⟩

theorem Index.toCalendar_day (x : Index) (e : Expiry) (i d : Nat) :
    (x.toCalendar e i).day d = x.day d ++ if e = .day d then [i] else [] := by
  cases e with
  | pending => simp [Index.toCalendar]
  | never => simp [Index.toCalendar]
  | day n =>
    rw [Index.toCalendar, Index.insertDay_day]
    by_cases hd : d = n
    · simp [hd]
    · simp [hd, Ne.symm hd]

/-! ### The mask, the count and the state of a live item -/

/-- A live item with one matter's bit of the hold mask written, and the hold count one up or one down with it (R130). -/
def LiveItem.setHold (l : LiveItem) (m : Nat) (cov : Bool) : LiveItem :=
  { l with
    holdMask := if cov then l.holdMask ||| bit64 m else l.holdMask &&& ~~~(bit64 m)
    holdCount := if cov then l.holdCount + 1 else l.holdCount - 1 }

/-- The state TABLE 6-2 gives an item whose mask has changed, by its hold count then. -/
def LiveState.afterHold (st : LiveState) (count : Nat) : LiveState :=
  match st with
  | .eligible => if 0 < count then .expiredHeld else .eligible
  | .expiredHeld => if count = 0 then .retained else .expiredHeld
  | x => x

theorem LiveItem.setHold_mask (l : LiveItem) {m : Nat} (hm : m ≤ 63) (cov : Bool) (k : Nat) :
    (l.setHold m cov).holdMask.getLsbD k = if k = m then cov else l.holdMask.getLsbD k := by
  have hlt : m < 64 := Nat.lt_succ_of_le hm
  have hbit : (bit64 m).getLsbD k = decide (k = m) := by simp [bit64_getLsbD, hlt, eq_comm]
  cases cov with
  | true =>
    rw [LiveItem.setHold, if_pos rfl, BitVec.getLsbD_or, hbit]
    by_cases hk : k = m <;> simp [hk]
  | false =>
    rw [LiveItem.setHold, if_neg Bool.false_ne_true, BitVec.getLsbD_and, BitVec.getLsbD_not, hbit]
    by_cases hk : k = m
    · simp [hk]
    · simpa [hk] using BitVec.lt_of_getLsbD

/-! ### What a changed mask does (TABLE 6-2) -/

/-- The record of an item whose mask has changed, in the state TABLE 6-2 gives it. -/
def ItemRec.afterHold (r : ItemRec) (l : LiveItem) : ItemRec :=
  { r with body := .live { l with state := l.state.afterHold l.holdCount } }

/-- The row of TABLE 6-2 for an item whose mask has changed: the record, the queue and the calendar. -/
theorem State.holdMove_eq (s : State) (i : Nat) (r : ItemRec) (l : LiveItem) :
    s.holdMove i r l =
      { s with
        index :=
          if l.state = .expiredHeld ∧ l.state.afterHold l.holdCount = .retained then
            (s.index.setItem i (r.afterHold l)).toCalendar r.expiry i
          else s.index.setItem i (r.afterHold l)
        dispo := if l.state = .eligible ∧ l.state.afterHold l.holdCount = .expiredHeld then s.dispo.remove i else s.dispo } := by
  obtain ⟨st, sentDay, tags, flags, mask, count, event, parties, segs⟩ := l
  cases st with
  | retained => simp [State.holdMove, ItemRec.afterHold, LiveState.afterHold]
  | released => simp [State.holdMove, ItemRec.afterHold, LiveState.afterHold]
  | eligible => by_cases hheld : 0 < count <;> simp [State.holdMove, ItemRec.afterHold, LiveState.afterHold, hheld]
  | expiredHeld => by_cases hfree : count = 0 <;> simp [State.holdMove, ItemRec.afterHold, LiveState.afterHold, hfree]

theorem State.holdMove_item (s : State) (i : Nat) (r : ItemRec) (l : LiveItem) :
    (s.holdMove i r l).index.item i = some (r.afterHold l) := by
  rw [State.holdMove_eq]
  dsimp only
  split
  · rw [Index.item, (Index.toCalendar_frame ..).1]
    exact Index.setItem_item ..
  · exact Index.setItem_item ..

theorem State.holdMove_day (s : State) (i : Nat) (r : ItemRec) (l : LiveItem) (d : Nat) :
    (s.holdMove i r l).index.day d = s.index.day d ++
      if l.state = .expiredHeld ∧ l.state.afterHold l.holdCount = .retained ∧ r.expiry = .day d then [i] else [] := by
  rw [State.holdMove_eq]
  dsimp only
  split
  next hfreed =>
    simp only [Index.toCalendar_day, ← and_assoc, and_iff_right hfreed]
    rfl
  next hstays =>
    rw [if_neg fun ⟨hheld, hretained, _⟩ => hstays ⟨hheld, hretained⟩, List.append_nil]
    rfl

theorem State.holdMove_dispo (s : State) (i : Nat) (r : ItemRec) (l : LiveItem) :
    (s.holdMove i r l).dispo =
      if l.state = .eligible ∧ l.state.afterHold l.holdCount = .expiredHeld then s.dispo.remove i else s.dispo := by
  rw [State.holdMove_eq]

/-- The keys, the queue of sweeps, the next number and every other item stand. -/
theorem State.holdMove_index_frame (s : State) (i : Nat) (r : ItemRec) (l : LiveItem) :
    (s.holdMove i r l).index.events = s.index.events ∧ (s.holdMove i r l).index.sweeps = s.index.sweeps ∧
      (s.holdMove i r l).index.next = s.index.next ∧ ∀ n, n ≠ i → (s.holdMove i r l).index.item n = s.index.item n := by
  rw [State.holdMove_eq]
  dsimp only
  split
  · obtain ⟨hitems, hnext, hevents, hsweeps⟩ := Index.toCalendar_frame (s.index.setItem i (r.afterHold l)) r.expiry i
    refine ⟨hevents, hsweeps, hnext, fun n hn => ?_⟩
    rw [Index.item, hitems]
    exact s.index.setItem_item_ne _ hn
  · exact ⟨rfl, rfl, rfl, fun n hn => s.index.setItem_item_ne _ hn⟩

/-! ### The step (R130) -/

/-- A live item's hold mask agrees with its coverage by a matter: nothing for a step of its HOLD sweep to do. -/
def State.holdAgrees (s : State) (m i : Nat) : Prop :=
  ∀ r l, s.index.item i = some r → r.body = .live l → s.hold.covers m r.domain l.sentDay l.parties = l.holdMask.getLsbD m

/-- Everything a HOLD sweep step can do to an item: nothing where mask and coverage agree, TABLE 6-2's row where they do not. -/
theorem State.holdStep_cases (s : State) (m i : Nat) :
    s.holdAgrees m i ∧ s.holdStep m i = (s, false) ∨
      ∃ r l, s.index.item i = some r ∧ r.body = .live l ∧
        s.hold.covers m r.domain l.sentDay l.parties ≠ l.holdMask.getLsbD m ∧
        s.holdStep m i = (s.holdMove i r (l.setHold m (s.hold.covers m r.domain l.sentDay l.parties)), true) := by
  cases hitem : s.index.item i with
  | none => exact .inl ⟨fun r l hr => by simp [hitem] at hr, by simp [State.holdStep, hitem]⟩
  | some r =>
    cases hbody : r.body with
    | disposed second =>
      refine .inl ⟨fun r' l hr hl => ?_, by simp [State.holdStep, hitem, hbody]⟩
      obtain rfl := Option.some.inj (hitem.symm.trans hr)
      simp [hbody] at hl
    | live l =>
      by_cases hagree : s.hold.covers m r.domain l.sentDay l.parties = l.holdMask.getLsbD m
      · refine .inl ⟨fun r' l' hr hl => ?_, by simp [State.holdStep, hitem, hbody, hagree]⟩
        obtain rfl := Option.some.inj (hitem.symm.trans hr)
        obtain rfl := ItemBody.live.inj (hbody.symm.trans hl)
        exact hagree
      · refine .inr ⟨r, l, rfl, hbody, hagree, ?_⟩
        cases hcov : s.hold.covers m r.domain l.sentDay l.parties with
        | true => simp [State.holdStep, hitem, hbody, hcov, hcov ▸ hagree, LiveItem.setHold]
        | false => simp [State.holdStep, hitem, hbody, hcov, hcov ▸ hagree, LiveItem.setHold]

theorem exec_holdSweepStep_of_running {s : State} {m : Nat} {u : SweepRun} (htaking : s.taking = true)
    (hrunning : s.index.running = some (.hold m, u)) (hcursor : u.cursor ≤ u.limit) :
    exec .holdSweepStep s = .next ((s.holdStep m u.cursor).1.advance u (s.holdStep m u.cursor).2) := by
  have hexec : exec .holdSweepStep s = .next s.stepHold := if_pos htaking
  have hpast : ¬ (SweepReq.hold m).past u = true := fun hpast => Nat.not_lt.mpr hcursor ((SweepReq.past_iff _ u).mp hpast)
  simp only [hexec, State.stepHold, hrunning, if_neg hpast]

theorem State.holdSweepStep_frame (s : State) (m : Nat) (u : SweepRun) :
    KeepsAllBut [.index, .dispo] s ((s.holdStep m u.cursor).1.advance u (s.holdStep m u.cursor).2) :=
  (s.holdStep_frame m u.cursor).trans ((State.advance_frame _ u _).mono rfl)

/-- Settles O39: where mask and coverage agree the cursor alone moves; where they do not, the bit, the count and TABLE 6-2's row. -/
theorem holdStep : Obligations.HoldStep := by
  intro s m rs u htaking hsweeps hm hrun hcursor
  have hexec := exec_holdSweepStep_of_running htaking (Index.running_of_cons hsweeps hrun) hcursor
  refine ⟨_, (s.holdStep m u.cursor).2, hexec, s.holdSweepStep_frame m u, ?_⟩
  rcases s.holdStep_cases m u.cursor with ⟨hagrees, hstep⟩ | ⟨r, l, hitem, hbody, hdisagrees, hstep⟩
  · rw [hstep]
    exact ⟨⟨rfl, rfl, rfl, fun _ _ => rfl⟩, rfl, fun _ => ⟨rfl, rfl, rfl, rfl⟩,
      fun r l cov hitem hbody hcov hne => absurd (hcov.trans (hagrees r l hitem hbody)) hne⟩
  · rw [hstep]
    obtain ⟨hevents, hqueue, hnext, hothers⟩ := s.holdMove_index_frame u.cursor r
      (l.setHold m (s.hold.covers m r.domain l.sentDay l.parties))
    refine ⟨⟨rfl, hqueue, hnext, hothers⟩, hevents, fun hagrees => absurd (hagrees r l hitem hbody) hdisagrees, ?_⟩
    rintro r' l' _ hitem' hbody' rfl -
    obtain rfl := Option.some.inj (hitem.symm.trans hitem')
    obtain rfl := ItemBody.live.inj (hbody.symm.trans hbody')
    exact ⟨rfl, _, _, s.holdMove_item .., rfl, rfl, rfl, l.setHold_mask hm _, rfl, rfl, s.holdMove_dispo ..,
      fun _ => s.holdMove_day ..⟩

end Sys2Proof.Machine
end
